-- ==== Sys2Proof/Machine/Memory.lean ====
section
/-! DEFINITION. A byte memory as plain data: a list of (key, byte) pairs with strictly rising keys and no
entry equal to what an unlisted key reads as, so that equal memories are equal lists. The one default
byte is 0x00 (assumption log 1: 10_state.md R46 and 93_implementation_defined.md U3 leave CPU RAM at power-on unspecified). -/

namespace Sys2Proof.Machine

/-- A sparse byte memory in canonical form (`Memory.wf`). -/
abbrev Memory := List Host.Cell

/-- What a key that no entry lists reads as. DESIGN CHOICE, unsafe (log 1). -/
def Memory.default : BitVec 8 := 0

/-- The byte at key `a`. -/
def Memory.read : Memory → Nat → BitVec 8
  | [], _ => Memory.default
  | (b, v) :: m, a => if a = b then v else Memory.read m a

/-- `m` with `v` put in front of its entries under key `a`, or `m` where `v` is the default byte. -/
def Memory.cons (a : Nat) (v : BitVec 8) (m : Memory) : Memory :=
  if v = Memory.default then m else (a, v) :: m

/-- `m` after the byte `v` is stored under key `a`; writing the default byte removes the entry. -/
def Memory.write : Memory → Nat → BitVec 8 → Memory
  | [], a, v => Memory.cons a v []
  | (b, w) :: m, a, v =>
    if a < b then Memory.cons a v ((b, w) :: m)
    else if a = b then Memory.cons a v m
    else (b, w) :: Memory.write m a v

/-- Keys strictly rising, all at least `k`, and no entry holds the default byte. -/
def Memory.wfFrom : Nat → Memory → Bool
  | _, [] => true
  | k, (b, v) :: m => decide (k ≤ b) && decide (v ≠ Memory.default) && Memory.wfFrom (b + 1) m

/-- The canonical form. -/
def Memory.wf (m : Memory) : Bool := Memory.wfFrom 0 m

/-- Every entry's key is below `n`. -/
def Memory.below (n : Nat) (m : Memory) : Bool := m.all (fun e => decide (e.1 < n))

/-- `m` after the bytes `vs` are stored under the keys `a`, `a + 1`, …. -/
def Memory.writeList : Memory → Nat → List (BitVec 8) → Memory
  | m, _, [] => m
  | m, a, v :: vs => Memory.writeList (Memory.write m a v) (a + 1) vs

end Sys2Proof.Machine
end

