-- ==== Sys2Proof/Word.lean ====
section
/-! DEFINITION. The two word types of the core: a byte (data bus, A, X, Y, SP, status byte) and a
16-bit address (PC, address bus). 00_scope.md R8 (`XLEN`, `ALEN`) and R9. Their arithmetic is that of
`BitVec`, which wraps: `u8` and `u16` of R9. -/

namespace Sys2Proof

/-- A byte, 8 bits (00_scope.md R9). -/
abbrev Byte := BitVec 8

/-- A 16-bit address (00_scope.md R8, `ALEN`). -/
abbrev Addr := BitVec 16

end Sys2Proof
end

