-- ==== Sys2Proof/Machine/Devices.lean ====
section
/-! DEFINITION. The state of the platform devices the core's bus reaches, as plain data: mapper, PPU, APU
frame sequencer, controllers (60_exceptions.md sections 9 to 13). -/

namespace Sys2Proof.Machine

/-- A flag that a write selects by one bit of its data: where the bit stands, and the level of the bit that selects the
flag. Both are free values of Config where the spec gives neither. -/
structure ControlBit (n : Nat) [NeZero n] where
  position : Fin n
  level : Bool
  deriving DecidableEq, Repr, Inhabited

/-- Whether the data selects the flag. -/
def ControlBit.on {n : Nat} [NeZero n] (b : ControlBit n) (d : BitVec n) : Bool := d.getLsbD b.position.val == b.level

/-- The flag whose bit is the one that `c` counts among the bits other than that of `b`. -/
def ControlBit.beside {n : Nat} [NeZero n] (b : ControlBit (n + 1)) (c : ControlBit n) : ControlBit (n + 1) :=
  { position := b.position.succAbove c.position, level := c.level }

/-- The three mapper variants (00_scope.md R5; 60_exceptions.md R399, R400, R401). A ROM of any other
mapper is never constructed (R402, 93_implementation_defined.md U14). -/
inductive MapperKind where
  | nrom
  | cnrom
  | mmc1
  deriving DecidableEq, Repr, Inhabited

/-- "PRG bank mode supports fixed-first/fixed-last/32K variants" (60_exceptions.md R403). -/
inductive PrgMode where
  | fixedFirst
  | fixedLast
  | whole32K
  deriving DecidableEq, Repr, Inhabited

/-- The 4-entry nametable-mirroring table, one of four physical quadrants per logical quadrant
(60_exceptions.md R392, R397; 90_conflicts.md C10). -/
structure Mirror where
  q0 : Fin 4
  q1 : Fin 4
  q2 : Fin 4
  q3 : Fin 4
  deriving DecidableEq, Repr, Inhabited

/-- MMC1 registers (60_exceptions.md R401, R403). `count` is how many bits the shift register holds. -/
structure Mmc1 where
  shift : BitVec 5
  count : Fin 5
  control : BitVec 5
  chrBank0 : BitVec 5
  chrBank1 : BitVec 5
  prgBank : BitVec 5
  lock : BitVec 2
  deriving DecidableEq, Repr, Inhabited

/-- The cartridge: its byte buffers, "sized at construction from ROM metadata", and the mapper's registers
(60_exceptions.md R397). `prgBanks` counts the 16 KB banks of PRG-ROM, `chrBanks` the 8 KB banks of CHR. -/
structure Cart where
  kind : MapperKind
  prgBanks : Nat
  prgRom : Memory
  prgRamPresent : Bool
  prgRam : Memory
  chrBanks : Nat
  chrIsRam : Bool
  chr : Memory
  mirror : Mirror
  chrBank : Byte
  mmc1 : Mmc1
  deriving DecidableEq, Repr, Inhabited

/-- A physical byte of the CPU's address space that holds what was stored: CPU RAM (key below 2048),
PRG-RAM (key below 8192), PRG-ROM (offset into the buffer). 20_memory.md R69; 60_exceptions.md R397. -/
inductive Cell where
  | ram (k : Nat)
  | prgRam (k : Nat)
  | prgRom (k : Nat)
  deriving DecidableEq, Repr, Inhabited

/-- One of the eight sprite shift slots, "shift data, attribute byte, x-counter" (60_exceptions.md R385). The spec
gives no widths: that the shift data is two 8-bit registers and the x-counter has 8 bits is PRESUMED from the family
(log 35). -/
structure SpriteSlot where
  shiftLo : Byte
  shiftHi : Byte
  attr : Byte
  xCounter : Byte
  deriving DecidableEq, Repr, Inhabited

/-- What the background tile fetch has read, "nametable byte, attribute byte, low pattern byte, high pattern
byte" (60_exceptions.md R388). -/
structure TileFetch where
  nametable : Byte
  attr : Byte
  patternLo : Byte
  patternHi : Byte
  deriving DecidableEq, Repr, Inhabited

/-- "two 16-bit background pattern shift registers, two 8-bit attribute shift registers with one-cycle-delayed
latch buffers" (60_exceptions.md R385). The spec gives neither the width nor the number of the latch buffers: one
of 8 bits for each of the two registers is a DESIGN CHOICE (log 35). -/
structure BgShift where
  patternLo : BitVec 16
  patternHi : BitVec 16
  attrLo : Byte
  attrHi : Byte
  attrLatchLo : Byte
  attrLatchHi : Byte
  deriving DecidableEq, Repr, Inhabited

/-- The pixel pipeline's registers (60_exceptions.md R385, R388); `out1` to `out3` are the 3-cycle output
latency. -/
structure PixelPipe where
  fetch : TileFetch
  bg : BgShift
  sprites : Vector SpriteSlot 8
  out1 : BitVec 6
  out2 : BitVec 6
  out3 : BitVec 6
  deriving DecidableEq, Repr, Inhabited

/-- The PPU (60_exceptions.md R385). -/
structure Ppu where
  scanline : Fin 262
  cycle : Fin 341
  oddFrame : Bool
  v : BitVec 15
  t : BitVec 15
  fineX : BitVec 3
  w : Bool
  readBuffer : Byte
  ctrl : Byte
  mask : Byte
  oamAddr : Byte
  vblank : Bool
  spriteZeroHit : Bool
  spriteOverflow : Bool
  grace : Nat
  oam : Memory
  secondaryOam : Memory
  palette : Memory
  vram : Memory
  pipe : PixelPipe
  frame : Memory
  lastFrame : Memory
  frameDone : Bool
  deriving DecidableEq, Repr, Inhabited

/-- What a dot of a visible scanline outside cycles 1 to 256 fetches and makes of the VRAM address (next-line
prefetch, scroll copy): not in the source (91_not_in_source.md N26). -/
structure LineTail where
  fetch : TileFetch
  v : BitVec 15
  deriving DecidableEq, Repr, Inhabited

/-- One APU channel's length counter with its halt flag, the buffered halt copy and the mark of a reload
in the present APU cycle (60_exceptions.md R395, R406). The spec gives the counter no width: 8 bits, for it and for
the entries of the reload table, is PRESUMED from the family (log 18). -/
structure Channel where
  length : Byte
  halt : Bool
  haltNext : Bool
  reloaded : Bool
  deriving DecidableEq, Repr, Inhabited

/-- The channels with a length counter. The spec speaks of "per-channel length counters" (60_exceptions.md
R395) and gives no number: that they are these four, and that the DMC channel has none, is PRESUMED from the
family (log 18). -/
inductive ChannelName where
  | pulse1
  | pulse2
  | triangle
  | noise
  deriving DecidableEq, Repr, Inhabited

/-- What a channel register of 0x4000 to 0x4013 does to the frame sequencer; which does what is not in
the source (91_not_in_source.md N27). -/
inductive ApuRegister where
  | other
  | halt (ch : ChannelName)
  | length (ch : ChannelName)
  deriving DecidableEq, Repr, Inhabited

/-- The APU frame sequencer (60_exceptions.md R395, R405). `resetIn` counts APU cycles to a scheduled
divider/step reset, 0 when none is; `clockDue` is the one-cycle-delayed channel-counter clock. -/
structure Apu where
  fiveStep : Bool
  irqDisable : Bool
  stepIndex : Fin 5
  divider : Nat
  cycleSwitch : Bool
  frameIrq : Bool
  resetIn : Nat
  clockDue : Bool
  pulse1 : Channel
  pulse2 : Channel
  triangle : Channel
  noise : Channel
  deriving DecidableEq, Repr, Inhabited

/-- A controller (60_exceptions.md R404): the buttons the host pushes (bit 0 A, 1 B, 2 Select, 3 Start,
4 Up, 5 Down, 6 Left, 7 Right), the shift register and how many of its eight bits are unread. -/
structure Pad where
  buttons : Byte
  shift : Byte
  left : Fin 9
  deriving DecidableEq, Repr, Inhabited

end Sys2Proof.Machine
end

