-- ==== Sys2Proof/Config.lean ====
section
/-! DEFINITION. What the spec leaves open and the machine goes on with: free values. Each is a constant
with no body, so nothing can be proved about its value, and a claim about it holds whatever it is. The
ones that are "any value per read" (92_eei_decisions.md D25) take the draw number `State.con.draws`.
The parameters of 00_scope.md R8 that have a decided or nominal value are no free values: they are
`State.params` (log 4). -/

namespace Sys2Proof

open Sys2Proof.Machine

/-! ## The bus and the core -/

/-- `OPEN_BUS`: the byte read where no device answers, one draw per read (20_memory.md R80, D25; log 7). -/
opaque Config.openBus : Nat → Byte

/-- The byte of a raw debug read where no stored byte answers and the debug read is quiet
(93_implementation_defined.md U16, U17; log 31). -/
opaque Config.debugByte : Addr → (clock draws : Nat) → Byte

/-- Bits 5 and 4 of the status byte as the debug accessor returns it (93_implementation_defined.md U6;
log 26). -/
opaque Config.debugStatusBits : Nat → BitVec 2

/-! ## PPU (91_not_in_source.md N25, N26; logs 14 to 16, 32) -/

/-- The position of the VBlank flag in the status byte. -/
opaque Config.ppuVblankBit : Fin 8

/-- The position of the sprite-0-hit flag, counted among the other seven bits. -/
opaque Config.ppuSpriteZeroHitBit : Fin 7

/-- The position of the sprite-overflow flag, counted among the other six bits. -/
opaque Config.ppuSpriteOverflowBit : Fin 6

/-- The bits of the status byte that show no flag. -/
opaque Config.ppuStatusOtherBits : Nat → Byte

/-- The "control bit" of PPUCTRL on which the VRAM increment of 1 or 32 depends (60_exceptions.md R389): its position,
and the level that selects 32. -/
opaque Config.ppuIncrementBit : ControlBit 8

/-- Whether the PPU is "during active rendering" (60_exceptions.md R389) with this PPUMASK at this dot. -/
opaque Config.ppuRendering : (mask : Byte) → (scanline cycle : Nat) → Bool

/-- Whether a read of the status port resets the write toggle (70_reset_and_hazards.md R447 lists the port as
one with a read side effect; 91_not_in_source.md N25). -/
opaque Config.ppuStatusResetsToggle : Bool

/-- The coarse-X step of the VRAM address, the one of the tile fetch (60_exceptions.md R388, R389), with this
PPUMASK. -/
opaque Config.ppuCoarseX : (mask : Byte) → (v : BitVec 15) → BitVec 15

/-- The coarse-Y step of the VRAM address (60_exceptions.md R389), with this PPUMASK. -/
opaque Config.ppuCoarseY : (mask : Byte) → (v : BitVec 15) → BitVec 15

/-- Whether the pipeline makes the coarse-Y step at this cycle of a visible scanline. -/
opaque Config.ppuStepsY : (cycle : Nat) → Bool

/-- What a PPUCTRL write does to the temporary address. -/
opaque Config.ppuCtrlTemp : (data : Byte) → (t : BitVec 15) → BitVec 15

/-- The bit 14 that the high half of a PPUADDR write leaves in the temporary address. -/
opaque Config.ppuAddrTopBit : (data : Byte) → Bool

/-- Whether the temporary address is copied to the VRAM address after the high (`false`) or the low half of a
PPUADDR write. -/
opaque Config.ppuAddrCopies : (low : Bool) → Bool

/-- The OAM address after a write to OAMADDR (`isData = false`) or OAMDATA (`true`). -/
opaque Config.ppuOamAddr : (isData : Bool) → (data oamAddr : Byte) → Byte

/-- The OAM cell and byte that a write to OAMADDR or OAMDATA stores, if any. -/
opaque Config.ppuOamStore : (isData : Bool) → (data oamAddr : Byte) → Option (Byte × Byte)

/-- The frame parity after which cycle 0 is skipped, "on alternating frames" (60_exceptions.md R387): which
of the two is not in the source. -/
opaque Config.ppuSkipParity : Bool

/-- Where in the nametables the fetched nametable byte lies. None of the pipeline's free values takes a draw:
the PPU has no random input (60_exceptions.md R393). -/
opaque Config.ppuNametableIndex : (v : BitVec 15) → BitVec 12

/-- Where in the nametables the fetched attribute byte lies; that it lies in nametable space is a DESIGN CHOICE
(log 16). -/
opaque Config.ppuAttributeIndex : (v : BitVec 15) → BitVec 12

/-- Where in the pattern tables the low or high pattern byte of a tile lies. -/
opaque Config.ppuPatternIndex : (high : Bool) → (ctrl tile : Byte) → (v : BitVec 15) → BitVec 13

/-- The bit of the pattern shift registers that fine X picks (60_exceptions.md R388). -/
opaque Config.ppuPatternTap : (fineX : BitVec 3) → Fin 16

/-- The bit of the attribute shift registers that fine X picks (60_exceptions.md R388). -/
opaque Config.ppuAttributeTap : (fineX : BitVec 3) → Fin 8

/-- How a pattern shift register shifts and reloads from the fetched byte in a cycle ("when the shift registers
reload and shift", 91_not_in_source.md N26). -/
opaque Config.ppuPatternShift : (cycle : Nat) → (fetched : Byte) → BitVec 16 → BitVec 16

/-- How an attribute latch buffer takes its bit of the fetched attribute byte in a cycle ("the attribute-bit
selection", 91_not_in_source.md N26). -/
opaque Config.ppuAttributeLatch : (high : Bool) → (cycle : Nat) → (v : BitVec 15) → (fetched latch : Byte) → Byte

/-- How an attribute shift register shifts in a cycle; `latch` is its latch buffer as the cycle found it. -/
opaque Config.ppuAttributeShift : (cycle : Nat) → (latch : Byte) → Byte → Byte

/-- How a sprite's shift slot moves on in a cycle. -/
opaque Config.ppuSpriteShift : (cycle : Nat) → SpriteSlot → SpriteSlot

/-- The "priority/transparency rules" (60_exceptions.md R388): the palette index of the background pixel `bg`
composited against the sprite slots. -/
opaque Config.ppuComposite : (bg : BitVec 4) → Vector SpriteSlot 8 → (mask : Byte) → (cycle : Nat) →
  (palette : Memory) → BitVec 6

/-- The sprite-0-hit condition. -/
opaque Config.ppuSpriteZeroHit : (bg : BitVec 4) → Ppu → Bool

/-- The cycle from 257 on in which a slot is loaded from secondary OAM (60_exceptions.md R385; cycles 257 to 340:
91_not_in_source.md N26; log 35). -/
opaque Config.ppuSpriteLoad : (slot : Fin 8) → Fin 84

/-- Where in the pattern tables the low or high pattern byte of a sprite lies. -/
opaque Config.ppuSpritePatternIndex : (high : Bool) → (ctrl y tile attr : Byte) → (scanline : Nat) → BitVec 13

/-- The shift data a sprite's pattern byte becomes (a flipped sprite, a slot without a sprite). -/
opaque Config.ppuSpriteShiftData : (ctrl y attr : Byte) → (scanline : Nat) → (pattern : Byte) → Byte

/-- What a dot of a visible scanline outside cycles 1 to 256 fetches and makes of the VRAM address. -/
opaque Config.ppuLineTail : Ppu → Cart → LineTail

/-- The sprite range check of a Y byte against a scanline (60_exceptions.md R391). -/
opaque Config.spriteInRange : (y : Byte) → (scanline : Nat) → (ctrl : Byte) → Bool

/-- The byte secondary OAM is cleared to (60_exceptions.md R391). -/
opaque Config.secondaryOamClear : Byte

/-! ## APU (91_not_in_source.md N27; logs 18, 19) -/

/-- The divider's reload value in each sequence mode and step (60_exceptions.md R395). -/
opaque Config.apuDivider : (fiveStep : Bool) → (stepIndex : Nat) → Nat

/-- Whether a step of a sequence mode clocks the channel counters (60_exceptions.md R395). -/
opaque Config.apuStepClocks : (fiveStep : Bool) → (stepIndex : Nat) → Bool

/-- The bit of a frame-counter write that selects the 5-step mode (60_exceptions.md R405); that it is one bit
is PRESUMED (log 18). -/
opaque Config.frameCounterModeBit : ControlBit 8

/-- The bit of a frame-counter write that selects IRQ-disable (60_exceptions.md R395), its position counted among the
other seven; one bit: PRESUMED (log 18). -/
opaque Config.frameCounterIrqBit : ControlBit 7

/-- Whether the frame-IRQ pending flag is cleared by a frame-counter write that sets IRQ-disable
(60_exceptions.md R407: not stated). -/
opaque Config.irqDisableClearsFrameIrq : Bool

/-- Whether a status read clears the frame-IRQ pending flag (60_exceptions.md R407: not stated). -/
opaque Config.statusReadClearsFrameIrq : Bool

/-- The "fixed 32-entry lookup table" of length-counter reloads (60_exceptions.md R406). -/
opaque Config.lengthTable : BitVec 5 → Byte

/-- What the channel register at 0x4000 + r does (60_exceptions.md R394, R406). -/
opaque Config.apuRegister : (r : BitVec 5) → ApuRegister

/-- The bit of a channel register write that selects the channel's halt flag (60_exceptions.md R395); one bit:
PRESUMED (log 18). -/
opaque Config.channelHaltBit : ChannelName → ControlBit 8

/-- What a control write does to a channel's length counter (60_exceptions.md R394). -/
opaque Config.apuControlLength : ChannelName → (data length : Byte) → Byte

/-- The status bits of a channel whose length counter is not zero; which bits are "relevant" is not listed
(90_conflicts.md C2). The bit of the frame IRQ is none of them. -/
opaque Config.apuLengthBits : ChannelName → Byte

/-- The position of the status bit that shows the pending frame IRQ, which is "read … through the APU status port"
(60_exceptions.md R361). -/
opaque Config.apuFrameIrqBit : Fin 8

/-! ## Mapper (91_not_in_source.md N28; logs 13, 34) -/

/-- The CNROM bank a byte selects that is no bank of the cartridge. -/
opaque Config.cnromBankPastEnd : (data : Byte) → (banks : Nat) → Nat

/-- The PRG bank mode in the MMC1 control register (60_exceptions.md R403). -/
opaque Config.mmc1PrgMode : (control : BitVec 5) → PrgMode

/-- The selected PRG bank, in units of its mode's window (60_exceptions.md R403). -/
opaque Config.mmc1PrgBank : PrgMode → (prgBank : BitVec 5) → (banks : Nat) → Nat

/-- "PRG-RAM-disable", one bit of the MMC1 PRG register (60_exceptions.md R401; log 13). -/
opaque Config.mmc1PrgRamDisableBit : ControlBit 5

/-- The bit of the MMC1 control register that selects 4 KB CHR windows rather than 8 KB ("the bit positions inside the
control register … are not given", 60_exceptions.md R403; log 13). -/
opaque Config.mmc1Chr4KBit : ControlBit 5

/-- The 4 KB bank that the CHR register of one half of the pattern tables selects. -/
opaque Config.mmc1ChrBank4K : (chrBank : BitVec 5) → Nat

/-- The 8 KB bank that the CHR registers select. -/
opaque Config.mmc1ChrBank8K : (chrBank0 chrBank1 : BitVec 5) → Nat

/-- The nametable mode in the MMC1 control register (60_exceptions.md R401). -/
opaque Config.mmc1Mirror : (control : BitVec 5) → Mirror

/-! ## Controllers (91_not_in_source.md N29; log 20) -/

/-- "the bit of the byte that carries the button" (60_exceptions.md R404). -/
opaque Config.padButtonBit : Fin 8

/-- The other bits of a byte a controller read returns. -/
opaque Config.padOtherBits : Nat → Byte

/-- The byte a controller read returns while strobe is high. -/
opaque Config.padStrobeHighByte : Nat → Byte

/-- The byte a controller read returns after the eighth read. -/
opaque Config.padOverreadByte : Nat → Byte

/-- The bit of a controller-port write that is the strobe (60_exceptions.md R404); one bit: PRESUMED (log 20). -/
opaque Config.strobeBit : ControlBit 8

end Sys2Proof
end

