-- ==== Sys2Proof/Machine/State.lean ====
section
/-! DEFINITION. The state of the machine as plain data: the core (10_state.md), the Console with the devices
behind the bus (60_exceptions.md sections 9 to 13), the parameters of 00_scope.md R8; the reasons a step can stop; the
power-on state. -/

namespace Sys2Proof.Machine

/-! ## Parameters (00_scope.md R8; log 4) -/

/-- `DUMMY_ACCESS` (40_addressing_and_cycles.md R123). -/
inductive DummyAccess where
  | nmos
  | none
  deriving DecidableEq, Repr, Inhabited

/-- `IRQ_MASKED_POLICY` (60_exceptions.md R342). -/
inductive IrqMasked where
  | hold
  | drop
  deriving DecidableEq, Repr, Inhabited

/-- What a raw debug read of a place without a stored byte does (93_implementation_defined.md U16; log 31):
nothing, or what a bus read does. -/
inductive DebugPorts where
  | quiet
  | bus
  deriving DecidableEq, Repr, Inhabited

/-- How often a device's `cycle()` is called: `calls` times in `cycles` CPU cycles (`CLOCK_RATIO`); never
where `cycles` is 0. -/
structure Ratio where
  calls : Nat
  cycles : Nat
  deriving DecidableEq, Repr, Inhabited

/-- The parameters the spec leaves to the model as arguments. They are fixed when the machine is
constructed and no step changes them; as data in State a claim about every state is a claim about every
value of them (log 4). -/
structure Params where
  dummyAccess : DummyAccess
  pushBitsHw : BitVec 2
  irqMasked : IrqMasked
  ppuPerCpu : Ratio
  apuPerCpu : Ratio
  ppuGrace : Nat
  ppuFirst : Bool
  apuFirst : Bool
  debugPorts : DebugPorts
  deriving DecidableEq, Repr, Inhabited

/-- The decided and nominal values of 00_scope.md R8; CPU before devices and quiet
debug reads are a DESIGN CHOICE (logs 4, 31). -/
def Params.standard : Params where
  dummyAccess := .nmos
  pushBitsHw := 0b11
  irqMasked := .hold
  ppuPerCpu := { calls := 3, cycles := 1 }
  apuPerCpu := { calls := 1, cycles := 1 }
  ppuGrace := 88974
  ppuFirst := false
  apuFirst := false
  debugPorts := .quiet

/-! ## The core -/

/-- The status register: six one-bit flags and no more (10_state.md R23, R33). -/
structure Status where
  c : Bool
  z : Bool
  i : Bool
  d : Bool
  v : Bool
  n : Bool
  deriving DecidableEq, Repr, Inhabited

/-- Which sequence is running (10_state.md R34). -/
inductive Seq where
  | instr
  | irq
  | nmi
  | reset
  deriving DecidableEq, Repr, Inhabited

/-- The execution state of a sequence in progress (10_state.md R34): `t` is the row the next cycle
performs, `ir` the opcode, then the latches and the carry of 40_addressing_and_cycles.md R130. -/
structure InFlight where
  seq : Seq
  t : Nat
  ir : Byte
  adl : Byte
  adh : Byte
  ptr : Byte
  dat : Byte
  carry : Bool
  deriving DecidableEq, Repr, Inhabited

/-- The control state: idle (`t = 0`), where the execution state holds no value (10_state.md R35), or in
flight. -/
inductive Control where
  | idle
  | busy (k : InFlight)
  deriving DecidableEq, Repr, Inhabited

/-- The core's registers, flags, requests, control state and fault (10_state.md R20 to R37). -/
structure Cpu where
  a : Byte
  x : Byte
  y : Byte
  sp : Byte
  pc : Addr
  p : Status
  resetReq : Bool
  nmiReq : Bool
  irqReq : Bool
  control : Control
  fault : Option Byte
  deriving DecidableEq, Repr, Inhabited

/-! ## The Console -/

/-- Everything behind the bus (60_exceptions.md R380 to R382). `clock` counts `cycle()` calls, as only the host
sees them (R361); `draws` counts the free values drawn (log 28); `ppuOwed` and `apuOwed` carry what of a device's calls
is not yet due, in parts of a call (log 4). -/
structure Console where
  ram : Memory
  cart : Cart
  ppu : Ppu
  apu : Apu
  strobe : Bool
  pad1 : Pad
  pad2 : Pad
  clock : Nat
  draws : Nat
  ppuOwed : Nat
  apuOwed : Nat
  deriving DecidableEq, Repr, Inhabited

/-- The whole state. -/
structure State where
  cpu : Cpu
  con : Console
  params : Params
  deriving DecidableEq, Repr, Inhabited

/-! ## Why a step can stop -/

/-- The stopped outcomes. -/
inductive Fault where
  /-- The illegal-opcode fault with the offending byte and the state it leaves (60_exceptions.md R331,
  R332), raised by the opcode fetch of `step` and `cycle`, and again with the same state by every later
  call (R333). Safe: it is the spec's own stop. -/
  | illegalOpcode (b : Byte) (stopped : State)
  /-- A control state for which no sequence table has a row, raised by `cycle` (and by `step` in such a
  state). No run reaches one (`State.controlOk`, log 10). Safe. -/
  | noRow
  deriving DecidableEq, Repr

/-- The refusals. -/
inductive Refusal where
  /-- An instruction that has no meaning yet, raised by `exec` alone. No arm uses it: every instruction is
  modelled. Safe. -/
  | notModelled (mnemonic : String)
  deriving DecidableEq, Repr

/-! ## Power-on (10_state.md R46; 70_reset_and_hazards.md R430) -/

/-- The core at power-on: the values of R46 and R430, a reset pending (log 2). -/
def Cpu.powerOn : Cpu where
  a := 0x00
  x := 0x00
  y := 0x00
  sp := 0x00
  pc := 0x0000
  p := { c := false, z := false, i := true, d := false, v := false, n := false }
  resetReq := true
  nmiReq := false
  irqReq := false
  control := .idle
  fault := none

/-- The PPU at power-on: the grace period begins (60_exceptions.md R390); all else is a DESIGN CHOICE (log 21). -/
def Ppu.powerOn (grace : Nat) : Ppu where
  scanline := 0
  cycle := 0
  oddFrame := false
  v := 0
  t := 0
  fineX := 0
  w := false
  readBuffer := 0
  ctrl := 0
  mask := 0
  oamAddr := 0
  vblank := false
  spriteZeroHit := false
  spriteOverflow := false
  grace := grace
  oam := []
  secondaryOam := []
  palette := []
  vram := []
  pipe :=
    { fetch := { nametable := 0, attr := 0, patternLo := 0, patternHi := 0 }
      bg := { patternLo := 0, patternHi := 0, attrLo := 0, attrHi := 0, attrLatchLo := 0, attrLatchHi := 0 }
      sprites := Vector.replicate 8 { shiftLo := 0, shiftHi := 0, attr := 0, xCounter := 0 }
      out1 := 0, out2 := 0, out3 := 0 }
  frame := []
  lastFrame := []
  frameDone := false

/-- A channel at power-on (DESIGN CHOICE, log 21). -/
def Channel.powerOn : Channel where
  length := 0
  halt := false
  haltNext := false
  reloaded := false

/-- The APU at power-on (DESIGN CHOICE, log 21). -/
def Apu.powerOn : Apu where
  fiveStep := false
  irqDisable := false
  stepIndex := 0
  divider := 0
  cycleSwitch := false
  frameIrq := false
  resetIn := 0
  clockDue := false
  pulse1 := Channel.powerOn
  pulse2 := Channel.powerOn
  triangle := Channel.powerOn
  noise := Channel.powerOn

/-- MMC1 registers at power-on (DESIGN CHOICE, log 21). -/
def Mmc1.powerOn : Mmc1 where
  shift := 0
  count := 0
  control := 0
  chrBank0 := 0
  chrBank1 := 0
  prgBank := 0
  lock := 0

/-- A controller at power-on (DESIGN CHOICE, log 21). -/
def Pad.powerOn : Pad where
  buttons := 0
  shift := 0
  left := 0

/-- The cartridge `State.reset` starts with: no program. The loader supplies the real one (10_state.md R45;
log 29). -/
def Cart.blank : Cart where
  kind := .nrom
  prgBanks := 2
  prgRom := []
  prgRamPresent := false
  prgRam := []
  chrBanks := 1
  chrIsRam := false
  chr := []
  mirror := { q0 := 0, q1 := 0, q2 := 1, q3 := 1 }
  chrBank := 0
  mmc1 := Mmc1.powerOn

/-- The machine at power-on with the cartridge and the parameters the host constructs it with
(10_state.md R45, R46; 70_reset_and_hazards.md R430, R436). -/
def State.powerOn (cart : Cart) (params : Params) : State where
  cpu := Cpu.powerOn
  con :=
    { ram := []
      cart := cart
      ppu := Ppu.powerOn params.ppuGrace
      apu := Apu.powerOn
      strobe := false
      pad1 := Pad.powerOn
      pad2 := Pad.powerOn
      clock := 0
      draws := 0
      ppuOwed := 0
      apuOwed := 0 }
  params := params

/-- The machine right after power-on, a reset pending: its first step is the RESET sequence (log 3). -/
def State.reset : State := State.powerOn Cart.blank Params.standard

end Sys2Proof.Machine
end

