-- ==== Sys2Proof/Machine/Bits.lean ====
section
/-! DEFINITION. The bit-field, extension and concatenation helpers of 00_scope.md R9, and the two
fixed pages (page zero, the stack page) of 20_memory.md R67, R72. -/

namespace Sys2Proof.Machine

/-- `lo(w) = w[7:0]` (00_scope.md R9). -/
def lo (w : Addr) : Byte := w.setWidth 8

/-- `hi(w) = w[15:8]` (00_scope.md R9). -/
def hi (w : Addr) : Byte := w.extractLsb' 8 8

/-- `{h, l}`, `h` in the high byte (00_scope.md R9). -/
def word (h l : Byte) : Addr := h ++ l

/-- `sext_16(b)` (00_scope.md R9). -/
def sext16 (b : Byte) : Addr := b.signExtend 16

/-- `zext_16(b)` (00_scope.md R9). -/
def zext16 (b : Byte) : Addr := b.setWidth 16

/-- A 0/1 integer of a flag, as the pseudocode of R201, R202, R232, R233 uses one. -/
def bit (b : Bool) : Byte := if b then 1 else 0

/-- The byte with the one bit `i`. -/
def bitMask (i : Fin 8) : Byte := 1 <<< i.val

/-- `v` with its bit `i` set to `b`. -/
def withBit (i : Fin 8) (b : Bool) (v : Byte) : Byte := (v &&& ~~~bitMask i) ||| (if b then bitMask i else 0)

/-- The page-zero address `{0x00, d}` (20_memory.md R67). -/
def zeroPage (d : Byte) : Addr := word 0x00 d

/-- The stack address `{0x01, sp}` (10_state.md R21; 20_memory.md R72). -/
def stackAddr (sp : Byte) : Addr := word 0x01 sp

end Sys2Proof.Machine
end

