-- ==== Sys2Proof/Machine/ApuUnit.lean ====
section
/-! DEFINITION. The APU frame sequencer as far as the spec records it (60_exceptions.md R394, R395, R405 to
R407; 70_reset_and_hazards.md R441). What the source does not give is a free value of Config (logs 18, 19). -/

namespace Sys2Proof.Machine

/-! ## Length counters (60_exceptions.md R395, R406) -/

/-- A channel-counter clock of one channel: no decrement when halted, at zero, or reloaded in this very
cycle ("the counter is protected from the very decrement"). -/
def Channel.clock (c : Channel) : Channel :=
  if c.halt || c.reloaded || c.length == 0 then c else { c with length := c.length - 1 }

/-- The end of an APU cycle: the buffered halt flag takes effect, the reload mark ends. DESIGN CHOICE: a clock
coincides with a reload when it comes in the APU cycle that follows the write (log 19). -/
def Channel.settle (c : Channel) : Channel := { c with halt := c.haltNext, reloaded := false }

/-- A reload "from a fixed 32-entry lookup table keyed by the top 5 bits of the written byte". -/
def Channel.reload (d : Byte) (c : Channel) : Channel :=
  { c with length := Config.lengthTable (d.extractLsb' 3 5), reloaded := true }

/-- `f` applied to every channel. -/
def Apu.mapChannels (f : Channel → Channel) (a : Apu) : Apu :=
  { a with pulse1 := f a.pulse1, pulse2 := f a.pulse2, triangle := f a.triangle, noise := f a.noise }

/-- `f` applied to one channel. -/
def Apu.mapChannel (ch : ChannelName) (f : Channel → Channel) (a : Apu) : Apu :=
  match ch with
  | .pulse1 => { a with pulse1 := f a.pulse1 }
  | .pulse2 => { a with pulse2 := f a.pulse2 }
  | .triangle => { a with triangle := f a.triangle }
  | .noise => { a with noise := f a.noise }

/-! ## The sequencer's cycle (60_exceptions.md R395, R405) -/

/-- The delayed channel-counter clock of the previous cycle, if one is due. -/
def Apu.dueClock (a : Apu) : Apu :=
  if a.clockDue then { a.mapChannels Channel.clock with clockDue := false } else a

/-- The scheduled divider/step reset counts down; at its end the divider and the step restart and, "if
5-step mode is selected, immediately clocks channel counters once as a side effect of the reset" (R405). DESIGN
CHOICE: a counter reloaded in this very cycle is protected from that clock too, where R406 speaks of "a scheduled
quarter/half-frame clock" (log 19). DESIGN CHOICE: R405's "exactly 2 (CPU-)cycles" is followed where 70_reset_and_hazards.md R441 says that a status read in the
next instruction "sees the old sequencer state": such a read comes more than two cycles later (log 19). -/
def Apu.resetCountdown (a : Apu) : Apu :=
  if a.resetIn = 0 then a
  else if a.resetIn = 1 then
    let b := { a with resetIn := 0, stepIndex := 0, divider := Config.apuDivider a.fiveStep 0 }
    if a.fiveStep then b.mapChannels Channel.clock else b
  else { a with resetIn := a.resetIn - 1 }

/-- The step after this one, 4 or 5 steps a sequence. -/
def Apu.nextStep (a : Apu) : Fin 5 :=
  if a.stepIndex = 4 then 0
  else if !a.fiveStep && a.stepIndex == 3 then 0
  else a.stepIndex + 1

/-- "Divider reaches zero → step counter increments → step dispatch table triggers a one-cycle-delayed
channel-counter clock and, in 4-step mode at the terminal step, raises the frame IRQ unless disabled". -/
def Apu.stepDispatch (a : Apu) : Apu :=
  { a with
    stepIndex := a.nextStep
    divider := Config.apuDivider a.fiveStep a.nextStep.val
    clockDue := Config.apuStepClocks a.fiveStep a.nextStep.val
    frameIrq := a.frameIrq || (!a.fiveStep && a.nextStep == 3 && !a.irqDisable) }

/-- The main divider, advanced only on "CPU-half-cycle" ticks (`cycleSwitch`). The spec says only "Divider reaches
zero": DESIGN CHOICE, an advancing tick that finds it at 1 or already at 0 (power-on, a reload value of 0) is the step,
so that the first advancing tick after power-on is one (log 19). -/
def Apu.dividerTick (a : Apu) : Apu :=
  if a.cycleSwitch then
    if a.divider ≤ 1 then { a.stepDispatch with cycleSwitch := false }
    else { a with divider := a.divider - 1, cycleSwitch := false }
  else { a with cycleSwitch := true }

/-- One APU cycle, the APU's `cycle()` (60_exceptions.md R394). -/
def Apu.cycle (a : Apu) : Apu :=
  (a.dueClock.resetCountdown.dividerTick).mapChannels Channel.settle

/-! ## Ports (60_exceptions.md R394, R405, R406) -/

/-- The bit of a frame-counter write for IRQ-disable, another one than the mode's (PRESUMED, log 18). -/
def frameIrqDisableBit : ControlBit 8 := Config.frameCounterModeBit.beside Config.frameCounterIrqBit

/-- `writeFrameCounter`: mode and IRQ-disable are taken over, a reset is scheduled "2 cycles in the future,
never immediately" (R405). DESIGN CHOICE: the mode and IRQ-disable are in force at once, so that a step dispatched
before the reset is due already goes by them (the spec delays the reset alone; log 19). DESIGN CHOICE: a second write before the first one's reset is due schedules anew, so
that the first reset does not happen (log 19). -/
def Apu.writeFrameCounter (d : Byte) (a : Apu) : Apu :=
  { a with
    fiveStep := Config.frameCounterModeBit.on d
    irqDisable := frameIrqDisableBit.on d
    frameIrq := a.frameIrq && !(frameIrqDisableBit.on d && Config.irqDisableClearsFrameIrq)
    resetIn := 2 }

/-- `writeRegister`: a channel register at 0x4000 + r. -/
def Apu.writeRegister (r : BitVec 5) (d : Byte) (a : Apu) : Apu :=
  match Config.apuRegister r with
  | .other => a
  | .halt ch => a.mapChannel ch (fun c => { c with haltNext := (Config.channelHaltBit ch).on d })
  | .length ch => a.mapChannel ch (Channel.reload d)

/-- `writeControl`: what it does to each length counter is a free value. The spec is silent on all else a control
write may do: DESIGN CHOICE, it changes nothing else, and there is no channel-enable state that a later length reload
would look at (log 18). -/
def Apu.writeControl (d : Byte) (a : Apu) : Apu :=
  { a with
    pulse1 := { a.pulse1 with length := Config.apuControlLength .pulse1 d a.pulse1.length }
    pulse2 := { a.pulse2 with length := Config.apuControlLength .pulse2 d a.pulse2.length }
    triangle := { a.triangle with length := Config.apuControlLength .triangle d a.triangle.length }
    noise := { a.noise with length := Config.apuControlLength .noise d a.noise.length } }

/-- The one status bit of the frame IRQ. -/
def frameIrqMask : Byte := bitMask Config.apuFrameIrqBit

/-- The status bits of one channel; the frame IRQ's bit is none of them. -/
def Channel.statusBits (name : ChannelName) (c : Channel) : Byte :=
  if c.length = 0 then 0 else Config.apuLengthBits name &&& ~~~frameIrqMask

/-- The byte of a `readStatus`: "zero plus the relevant status bits" (R394; 90_conflicts.md C2; log 18), among them the
frame IRQ's (R361). -/
def Apu.status (a : Apu) : Byte :=
  a.pulse1.statusBits .pulse1 ||| a.pulse2.statusBits .pulse2 ||| a.triangle.statusBits .triangle |||
    a.noise.statusBits .noise ||| (if a.frameIrq then frameIrqMask else 0)

/-- The APU after a `readStatus`. -/
def Apu.statusReadEffect (a : Apu) : Apu :=
  { a with frameIrq := a.frameIrq && !Config.statusReadClearsFrameIrq }

/-- `irqWaiting()`: "reports pending frame-IRQ" (60_exceptions.md R394, R407). -/
def Apu.irqWaiting (a : Apu) : Bool := a.frameIrq

end Sys2Proof.Machine
end

