-- ==== Sys2Proof/Machine/Controllers.lean ====
section
/-! DEFINITION. The controller ports: "a strobe-latched 8-bit shift register exposing button state bits …
one bit per read while strobe is low" (60_exceptions.md R404; log 20). -/

namespace Sys2Proof.Machine

/-- The byte that exposes a button bit: one bit carries it, of which only the position is open, and the others are
free (R404; log 20). -/
def padByte (button : Bool) (draw : Nat) : Byte := withBit Config.padButtonBit button (Config.padOtherBits draw)

/-- The byte a read of a controller port returns. -/
def Pad.value (strobe : Bool) (draw : Nat) (p : Pad) : Byte :=
  if strobe then Config.padStrobeHighByte draw
  else if p.left = 0 then Config.padOverreadByte draw
  else padByte (p.shift.getLsbD 0) draw

/-- The controller after a read: the shift register moves one bit on while strobe is low. -/
def Pad.afterRead (strobe : Bool) (p : Pad) : Pad :=
  if strobe || p.left == 0 then p else { p with shift := p.shift >>> 1, left := p.left - 1 }

/-- The controller after a strobe write: "writing strobe high then low re-latches current button state". -/
def Pad.afterStrobe (old new : Bool) (p : Pad) : Pad :=
  if old && !new then { p with shift := p.buttons, left := 8 } else p

end Sys2Proof.Machine
end

