-- ==== Sys2Proof/Machine/Mapper.lean ====
section
/-! DEFINITION. The cartridge mappers NROM, CNROM, MMC1 as the CPU and the PPU see them
(60_exceptions.md R396 to R403; 20_memory.md R73, R82; 70_reset_and_hazards.md R440). Translation is a pure
function of the address and the bank registers (R397). -/

namespace Sys2Proof.Machine

/-! ## CPU side -/

/-- An offset brought inside a buffer of `banks` banks of `unit` bytes, the buffer repeating. The spec sizes
the buffers (60_exceptions.md R397) and does not say what lies past them: DESIGN CHOICE (log 34). -/
def bufferOffset (banks unit k : Nat) : Nat := k % (banks * unit)

/-- The PRG-ROM offset behind a CPU address of 0x8000 to 0xFFFF (60_exceptions.md R399, R400, R403). The spec names
the MMC1 variants "fixed-first/fixed-last" and not the halves of the window: that the fixed first bank stands at
0x8000 to 0xBFFF and the fixed last one at 0xC000 to 0xFFFF is PRESUMED from the family (log 11). -/
def Cart.prgOffset (a : Addr) (c : Cart) : Nat :=
  match c.kind with
  | .nrom | .cnrom => if c.prgBanks = 1 then a.toNat % 0x4000 else a.toNat % 0x8000
  | .mmc1 =>
    let mode := Config.mmc1PrgMode c.mmc1.control
    let bank := Config.mmc1PrgBank mode c.mmc1.prgBank c.prgBanks
    bufferOffset c.prgBanks 0x4000
      (match mode with
      | .whole32K => bank * 0x8000 + a.toNat % 0x8000
      | .fixedFirst => (if a.toNat < 0xC000 then 0 else bank) * 0x4000 + a.toNat % 0x4000
      | .fixedLast => (if a.toNat < 0xC000 then bank else c.prgBanks - 1) * 0x4000 + a.toNat % 0x4000)

/-- Whether the PRG-RAM window answers: "where present" (R398) and, on MMC1, not disabled (R401). -/
def Cart.prgRamEnabled (c : Cart) : Bool :=
  c.prgRamPresent &&
    match c.kind with
    | .nrom | .cnrom => true
    | .mmc1 => !Config.mmc1PrgRamDisableBit.on c.mmc1.prgBank

/-- The stored byte a CPU address of cartridge space leads to, if any: PRG-ROM from 0x8000, the PRG-RAM
window 0x6000 to 0x7FFF (60_exceptions.md R398). -/
def Cart.cellOf (a : Addr) (c : Cart) : Option Cell :=
  if 0x8000 ≤ a.toNat then some (.prgRom (c.prgOffset a))
  else if 0x6000 ≤ a.toNat then
    if c.prgRamEnabled then some (.prgRam (a.toNat % 0x2000)) else none
  else none

/-- The register an MMC1 commit writes, "selected by address bits 14–13" (60_exceptions.md R401). -/
def Mmc1.commit (a : Addr) (value : BitVec 5) (m : Mmc1) : Mmc1 :=
  if a.getLsbD 14 then
    if a.getLsbD 13 then { m with prgBank := value } else { m with chrBank1 := value }
  else
    if a.getLsbD 13 then { m with chrBank0 := value } else { m with control := value }

/-- The shift register after one more bit: bit 0 of the written byte enters at the top, so the first bit
written ends as bit 0 (95_test_vectors.md X7; log 12). -/
def Mmc1.shiftIn (v : Byte) (m : Mmc1) : BitVec 5 :=
  (m.shift >>> 1) ||| (if v.getLsbD 0 then 0b10000 else 0)

/-- One write that the lock lets through: "writes with bit 7 set reset the shift register; otherwise each
write shifts in bit 0 and after 5 writes commits" (60_exceptions.md R401). -/
def Mmc1.serialWrite (a : Addr) (v : Byte) (m : Mmc1) : Mmc1 :=
  if v.getLsbD 7 then { m with shift := 0, count := 0 }
  else if m.count = 4 then { m.commit a (m.shiftIn v) with shift := 0, count := 0 }
  else { m with shift := m.shiftIn v, count := m.count + 1 }

/-- A write behind the write lock: "a one-cycle write lock (two-bit shift-counter) suppresses
consecutive-cycle writes" (60_exceptions.md R401; 70_reset_and_hazards.md R440). -/
def Mmc1.write (a : Addr) (v : Byte) (m : Mmc1) : Mmc1 :=
  if m.lock = 0 then { m.serialWrite a v with lock := 1 } else m

/-- The lock's counter is shifted once per CPU cycle (log 12). -/
def Mmc1.clock (m : Mmc1) : Mmc1 := { m with lock := m.lock <<< 1 }

/-- The lock of the cartridge's MMC1, clocked; the other mappers have none. -/
def Cart.clock (c : Cart) : Cart := { c with mmc1 := c.mmc1.clock }

/-- `cpuWrite(addr, v)` (60_exceptions.md R398 to R401; 20_memory.md R82): the PRG-RAM window stores where
it answers, 0x8000 to 0xFFFF writes the bank registers, PRG-ROM never changes, 0x4020 to 0x5FFF does nothing.
DESIGN CHOICE: the MMC1 write lock covers the writes from 0x8000 on and not those of the PRG-RAM window, which
R440's "CPU writes to the mapper" may be read to include (log 12); a CNROM write has no bus conflict (log 34). -/
def Cart.cpuWrite (a : Addr) (v : Byte) (c : Cart) : Cart :=
  if 0x8000 ≤ a.toNat then
    match c.kind with
    | .nrom => c
    | .cnrom => { c with chrBank := v }
    | .mmc1 => { c with mmc1 := c.mmc1.write a v }
  else if 0x6000 ≤ a.toNat then
    if c.prgRamEnabled then { c with prgRam := c.prgRam.write (a.toNat % 0x2000) v } else c
  else c

/-! ## PPU side -/

/-- The 8 KB CHR bank a CNROM shows: the whole written byte where it names a bank of the cartridge, else a
free value. That no bit of the byte is masked off is a DESIGN CHOICE (91_not_in_source.md N28; log 34). -/
def Cart.cnromBank (c : Cart) : Nat :=
  if c.chrBank.toNat < c.chrBanks then c.chrBank.toNat
  else Config.cnromBankPastEnd c.chrBank c.chrBanks

/-- The offset an MMC1 gives a pattern-table address: in the 4 KB mode each half of the tables has a window and
a CHR register of its own, in the 8 KB mode there is one window (60_exceptions.md R401, R403; log 13). -/
def Mmc1.chrOffset (a : Nat) (m : Mmc1) : Nat :=
  if Config.mmc1Chr4KBit.on m.control then
    Config.mmc1ChrBank4K (if a < 0x1000 then m.chrBank0 else m.chrBank1) * 0x1000 + a % 0x1000
  else Config.mmc1ChrBank8K m.chrBank0 m.chrBank1 * 0x2000 + a

/-- The CHR offset behind a pattern-table address of 0x0000 to 0x1FFF (60_exceptions.md R400, R403), inside the
cartridge's CHR buffer (log 34). -/
def Cart.chrOffset (a : Nat) (c : Cart) : Nat :=
  bufferOffset c.chrBanks 0x2000
    (match c.kind with
    | .nrom => a
    | .cnrom => c.cnromBank * 0x2000 + a
    | .mmc1 => c.mmc1.chrOffset a)

/-- The pattern byte the PPU reads. -/
def Cart.patternRead (a : Nat) (c : Cart) : Byte := c.chr.read (c.chrOffset a)

/-- A PPU write into pattern-table space: kept by CHR-RAM only (60_exceptions.md R403; 20_memory.md R82). -/
def Cart.patternWrite (a : Nat) (v : Byte) (c : Cart) : Cart :=
  if c.chrIsRam then { c with chr := c.chr.write (c.chrOffset a) v } else c

/-- The mirroring table in force: NROM's "fixed mirroring table from ROM header" (R399) or the one of the MMC1 control
register (R401). That CNROM too has the loader's fixed table, where R400 speaks of PRG alone, is a DESIGN CHOICE
(log 34). -/
def Cart.mirrorTable (c : Cart) : Mirror :=
  match c.kind with
  | .nrom | .cnrom => c.mirror
  | .mmc1 => Config.mmc1Mirror c.mmc1.control

/-- The physical quadrant of a logical one, "selected per 1KB nametable quadrant" (60_exceptions.md R392). -/
def Cart.quadrant (q : Nat) (c : Cart) : Nat :=
  match q with
  | 0 => c.mirrorTable.q0.val
  | 1 => c.mirrorTable.q1.val
  | 2 => c.mirrorTable.q2.val
  | _ => c.mirrorTable.q3.val

/-- The VRAM offset of a nametable address of 0x2000 to 0x3EFF (60_exceptions.md R392). The table has four entries, one
for each 1 KB quadrant from 0x2000 to 0x2FFF: that 0x3000 to 0x3EFF goes by the same entries as 0x2000 to 0x2EFF is a
DESIGN CHOICE (log 32). -/
def Cart.nametableOffset (a : Nat) (c : Cart) : Nat :=
  c.quadrant (a / 0x400 % 4) * 0x400 + a % 0x400

end Sys2Proof.Machine
end

