-- ==== Sys2Proof/Machine/PpuUnit.lean ====
section
/-! DEFINITION. The PPU as far as the spec records it: its address space, its eight ports, its dot
counter with the flag events, sprite evaluation, its pixel pipeline (60_exceptions.md R385 to R393; 70_reset_and_hazards.md R439, R442).
What the source does not give is a free value of Config (logs 14 to 17, 32, 33, 35). -/

namespace Sys2Proof.Machine

/-! ## The PPU's own address space (60_exceptions.md R382, R392; 10_state.md R47) -/

/-- The address in the PPU's 14-bit space that the 15-bit VRAM address register points at. The spec does not say
what the register's top bit does there: DESIGN CHOICE, it is dropped (log 32). -/
def Ppu.busAddr (p : Ppu) : Nat := p.v.toNat % 0x4000

/-- "palette addresses ≥0x3F00" (60_exceptions.md R389). -/
def Ppu.atPalette (p : Ppu) : Bool := decide (0x3F00 ≤ p.busAddr)

/-- The byte at the VRAM address. DESIGN CHOICE: the 32 bytes of palette RAM are distinct and repeat every 32
addresses from 0x3F00 to 0x3FFF; "palette mirroring of 0x3F10/14/18/1C" is not in the source (91_not_in_source.md
N26) and the model has none (log 32). -/
def Ppu.memRead (cart : Cart) (p : Ppu) : Byte :=
  if p.busAddr < 0x2000 then cart.patternRead p.busAddr
  else if p.busAddr < 0x3F00 then p.vram.read (cart.nametableOffset p.busAddr)
  else p.palette.read (p.busAddr % 32)

/-- The PPU after a byte is stored at the VRAM address (pattern space belongs to the mapper). The palette is 32
distinct bytes, as in `Ppu.memRead` (DESIGN CHOICE, log 32). -/
def Ppu.memWrite (cart : Cart) (d : Byte) (p : Ppu) : Ppu :=
  if p.busAddr < 0x2000 then p
  else if p.busAddr < 0x3F00 then { p with vram := p.vram.write (cart.nametableOffset p.busAddr) d }
  else { p with palette := p.palette.write (p.busAddr % 32) d }

/-- The cartridge after the PPU stores a byte at the VRAM address. -/
def Ppu.memWriteCart (cart : Cart) (d : Byte) (p : Ppu) : Cart :=
  if p.busAddr < 0x2000 then cart.patternWrite p.busAddr d else cart

/-! ## Ports -/

/-- The VRAM address after a PPUDATA access: it "auto-increments by 1 or 32 … depending on a control bit", one bit of
PPUCTRL whose position and level are open (60_exceptions.md R389; log 14); "when accessed during active rendering" it steps "via the same
coarse-X/Y stepping used internally by the rendering pipeline" (60_exceptions.md R389), the steps of `Ppu.fetchVram`; that both are made, X first, is a DESIGN CHOICE (log 16). -/
def Ppu.nextVram (p : Ppu) : BitVec 15 :=
  if Config.ppuRendering p.mask p.scanline.val p.cycle.val then
    Config.ppuCoarseY p.mask (Config.ppuCoarseX p.mask p.v)
  else p.v + (if Config.ppuIncrementBit.on p.ctrl then 32 else 1)

/-- The bit of the status byte that shows sprite-0-hit. -/
def spriteZeroHitBit : Fin 8 := Config.ppuVblankBit.succAbove Config.ppuSpriteZeroHitBit

/-- The bit of the status byte that shows sprite overflow. -/
def spriteOverflowBit : Fin 8 :=
  Config.ppuVblankBit.succAbove (Config.ppuSpriteZeroHitBit.succAbove Config.ppuSpriteOverflowBit)

/-- The byte of a status read: each of the three flags in a bit of its own, of which only the position is open, the
other bits free (60_exceptions.md R361, R386; log 14). -/
def Ppu.statusByte (draw : Nat) (p : Ppu) : Byte :=
  withBit Config.ppuVblankBit p.vblank
    (withBit spriteZeroHitBit p.spriteZeroHit
      (withBit spriteOverflowBit p.spriteOverflow (Config.ppuStatusOtherBits draw)))

/-- The byte a CPU read of port `addr & 7` returns: 2 PPUSTATUS, 7 PPUDATA (60_exceptions.md R386, R389);
the write-only ports and OAMDATA give a free value (20_memory.md R80; log 14). -/
def Ppu.portValue (cart : Cart) (port : BitVec 3) (draw : Nat) (p : Ppu) : Byte :=
  if port = 2 then p.statusByte draw
  else if port = 7 then (if p.atPalette then p.memRead cart else p.readBuffer)
  else Config.openBus draw

/-- The PPU after a CPU read of a port. PPUDATA: R389. The status port has a read side effect
(70_reset_and_hazards.md R447) that the source does not give (91_not_in_source.md N25): whether it resets the write
toggle is free; VBlank stays, since the flags "are cleared only at a fixed point on the pre-render line"
(60_exceptions.md R387; log 14). The spec is silent on what a read of OAMDATA or of a write-only port does: DESIGN
CHOICE, it changes nothing, the OAM address included (log 14). -/
def Ppu.portReadEffect (cart : Cart) (port : BitVec 3) (p : Ppu) : Ppu :=
  if port = 7 then
    { p with readBuffer := (if p.atPalette then p.readBuffer else p.memRead cart), v := p.nextVram }
  else if port = 2 then { p with w := p.w && !Config.ppuStatusResetsToggle }
  else p

/-- A write to OAMADDR or OAMDATA: what it stores is not in the source (91_not_in_source.md N25; log 15). -/
def Ppu.oamPort (isData : Bool) (d : Byte) (p : Ppu) : Ppu :=
  { p with
    oamAddr := Config.ppuOamAddr isData d p.oamAddr
    oam := match Config.ppuOamStore isData d p.oamAddr with
      | none => p.oam
      | some (k, b) => p.oam.write k.toNat b }

/-- The 15-bit address with its high byte written by a PPUADDR write: bits 13:8 the low six bits of the data, bit 14
free (log 15). -/
def addrHigh (d : Byte) (t : BitVec 15) : BitVec 15 :=
  BitVec.ofBool (Config.ppuAddrTopBit d) ++ d.extractLsb' 0 6 ++ t.extractLsb' 0 8

/-- The 15-bit address with its low byte written by a PPUADDR write. -/
def addrLow (d : Byte) (t : BitVec 15) : BitVec 15 := t.extractLsb' 8 7 ++ d

/-- The temporary address after the X half of a PPUSCROLL write: coarse X, bits 4:0 (log 15). -/
def scrollX (d : Byte) (t : BitVec 15) : BitVec 15 := t.extractLsb' 5 10 ++ d.extractLsb' 3 5

/-- The temporary address after the Y half of a PPUSCROLL write: fine Y, bits 14:12, and coarse Y, bits 9:5
(log 15). -/
def scrollY (d : Byte) (t : BitVec 15) : BitVec 15 :=
  d.extractLsb' 0 3 ++ t.extractLsb' 10 2 ++ d.extractLsb' 3 5 ++ t.extractLsb' 0 5

/-- A PPUADDR write: the toggle "selects high/low byte target" (60_exceptions.md R385), the high byte first
(PRESUMED, log 15); whether the VRAM address takes the temporary one over after a half is free. -/
def Ppu.writeAddr (d : Byte) (p : Ppu) : Ppu :=
  let t := if p.w then addrLow d p.t else addrHigh d p.t
  { p with t := t, v := if Config.ppuAddrCopies p.w then t else p.v, w := !p.w }

/-- A PPUSCROLL write: the toggle selects the X half, which writes coarse and fine X, or the Y half, which writes
coarse and fine Y, X first (60_exceptions.md R385; PRESUMED, log 15). -/
def Ppu.writeScroll (d : Byte) (p : Ppu) : Ppu :=
  if p.w then { p with t := scrollY d p.t, w := false }
  else { p with t := scrollX d p.t, fineX := d.extractLsb' 0 3, w := true }

/-- The PPU after a CPU write of a port (60_exceptions.md R386, R389, R390): PPUCTRL, PPUMASK, PPUSCROLL,
PPUADDR are no-ops while the grace period runs; PPUSCROLL and PPUADDR share the write toggle. -/
def Ppu.portWrite (cart : Cart) (port : BitVec 3) (d : Byte) (p : Ppu) : Ppu :=
  match port.toNat with
  | 0 => if p.grace = 0 then { p with ctrl := d, t := Config.ppuCtrlTemp d p.t } else p
  | 1 => if p.grace = 0 then { p with mask := d } else p
  | 3 => p.oamPort false d
  | 4 => p.oamPort true d
  | 5 => if p.grace = 0 then p.writeScroll d else p
  | 6 => if p.grace = 0 then p.writeAddr d else p
  | 7 => { p.memWrite cart d with v := p.nextVram }
  | _ => p

/-- The cartridge after a CPU write of a port: only PPUDATA reaches it (CHR-RAM). -/
def Ppu.portWriteCart (cart : Cart) (port : BitVec 3) (d : Byte) (p : Ppu) : Cart :=
  if port = 7 then p.memWriteCart cart d else cart

/-! ## Dots (60_exceptions.md R387) -/

/-- The dot counter one dot on: "scanline/cycle wrap at 340/261 with frame-parity-dependent cycle-0 skip on
alternating frames"; after which parity is free and PPUMASK has no part in it (log 16). DESIGN CHOICE: the frame is
completed, handed to `getFrame` and signalled, at the wrap from scanline 261 cycle 340 (log 33). -/
def Ppu.advance (p : Ppu) : Ppu :=
  if p.cycle = 340 then
    if p.scanline = 261 then
      { p with
        scanline := 0
        cycle := if p.oddFrame = Config.ppuSkipParity then 1 else 0
        oddFrame := !p.oddFrame
        lastFrame := p.frame
        frameDone := true }
    else { p with scanline := p.scanline + 1, cycle := 0 }
  else { p with cycle := p.cycle + 1 }

/-- The vertical scroll bits (coarse Y 9:5, nametable bit 11, fine Y 14:12; 60_exceptions.md R385) of the
temporary address put into the VRAM address (log 16). -/
def copyVertical (t v : BitVec 15) : BitVec 15 :=
  (v &&& 0b000010000011111) ||| (t &&& 0b111101111100000)

/-- The flag and scroll events of 60_exceptions.md R387 at the dot the counter stands at. -/
def Ppu.flagEvents (p : Ppu) : Ppu :=
  if p.scanline = 241 ∧ p.cycle = 1 then { p with vblank := true }
  else if p.scanline = 261 ∧ p.cycle = 1 then
    { p with vblank := false, spriteZeroHit := false, spriteOverflow := false }
  else if p.scanline = 261 ∧ p.cycle = 280 then { p with v := copyVertical p.t p.v }
  else p

/-- The scan of primary OAM (60_exceptions.md R391): up to 8 in-range sprites are copied; after that a
failed range check moves the pointer by 5, or by 1 when its low two bits equal 3, and a passed one is the
overflow. The first argument is fuel (256 steps reach the end of OAM). -/
def scanOam (inRange : Byte → Bool) (oam : Memory) : Nat → Nat → List Byte → List Byte × Bool
  | 0, _, found => (found, false)
  | fuel + 1, ptr, found =>
    if 256 ≤ ptr then (found, false)
    else if found.length < 32 then
      if inRange (oam.read ptr) then
        scanOam inRange oam fuel (ptr + 4)
          (found ++ [oam.read ptr, oam.read (ptr + 1), oam.read (ptr + 2), oam.read (ptr + 3)])
      else scanOam inRange oam fuel (ptr + 4) found
    else if inRange (oam.read ptr) then (found, true)
    else scanOam inRange oam fuel (ptr + (if ptr % 4 = 3 then 1 else 5)) found

/-- The result of evaluating the sprites of the present scanline. The spec says only "scan primary OAM" (R391): that
the scan begins at byte 0, whatever OAMADDR holds, and ends past byte 255 without wrapping, or at the overflow, is a
DESIGN CHOICE (log 35). -/
def Ppu.evaluated (p : Ppu) : List Byte × Bool :=
  scanOam (fun y => Config.spriteInRange y p.scanline.val p.ctrl) p.oam 256 0 []

/-- Sprite evaluation on a visible scanline: "cycles 1–64 clear secondary OAM, 65–256 scan primary OAM"
(60_exceptions.md R391); the scan's result stands at cycle 256 (log 16). -/
def Ppu.spriteEvents (p : Ppu) : Ppu :=
  if 1 ≤ p.cycle.val ∧ p.cycle.val ≤ 64 then
    { p with
      secondaryOam := p.secondaryOam.write ((p.cycle.val - 1) / 2) Config.secondaryOamClear }
  else if p.cycle.val = 256 then
    { p with
      secondaryOam := p.secondaryOam.writeList 0 p.evaluated.1
      spriteOverflow := p.spriteOverflow || p.evaluated.2 }
  else p

/-! ## The pixel pipeline of the visible scanlines (60_exceptions.md R388; log 16) -/

/-- A byte the pipeline reads in the nametables, "via mapper mirroring" (60_exceptions.md R392). -/
def Ppu.nametableRead (cart : Cart) (i : BitVec 12) (p : Ppu) : Byte :=
  p.vram.read (cart.nametableOffset i.toNat)

/-- The position 0 to 7 of cycle 1 to 256 in the "8-cycle repeating pattern". -/
def Ppu.fetchSlot (p : Ppu) : Nat := (p.cycle.val - 1) % 8

/-- The background tile fetch: "nametable byte, attribute byte, low pattern byte, high pattern byte". DESIGN
CHOICE: each takes two cycles and its byte stands in the second, and the attribute byte lies in nametable space, where
the spec says only "attribute byte" (log 16). -/
def Ppu.tileFetch (cart : Cart) (p : Ppu) : TileFetch :=
  let f := p.pipe.fetch
  match p.fetchSlot with
  | 1 => { f with nametable := p.nametableRead cart (Config.ppuNametableIndex p.v) }
  | 3 => { f with attr := p.nametableRead cart (Config.ppuAttributeIndex p.v) }
  | 5 =>
    { f with patternLo := cart.patternRead (Config.ppuPatternIndex false p.ctrl f.nametable p.v).toNat }
  | 7 =>
    { f with patternHi := cart.patternRead (Config.ppuPatternIndex true p.ctrl f.nametable p.v).toNat }
  | _ => f

/-- The VRAM address after a cycle of the tile fetch: "high pattern byte+coarse-X increment"; the coarse-Y step
at a cycle that is free. -/
def Ppu.fetchVram (p : Ppu) : BitVec 15 :=
  let x := if p.fetchSlot = 7 then Config.ppuCoarseX p.mask p.v else p.v
  if Config.ppuStepsY p.cycle.val then Config.ppuCoarseY p.mask x else x

/-- The background registers after a cycle in which the fetch stands at `f`. The latch buffers are
"one-cycle-delayed" (60_exceptions.md R385): an attribute shift register takes in what its latch held before the
cycle, so that a fetched attribute byte reaches it a cycle later than the latch. -/
def Ppu.nextBg (f : TileFetch) (p : Ppu) : BgShift :=
  let b := p.pipe.bg
  let c := p.cycle.val
  { patternLo := Config.ppuPatternShift c f.patternLo b.patternLo
    patternHi := Config.ppuPatternShift c f.patternHi b.patternHi
    attrLo := Config.ppuAttributeShift c b.attrLatchLo b.attrLo
    attrHi := Config.ppuAttributeShift c b.attrLatchHi b.attrHi
    attrLatchLo := Config.ppuAttributeLatch false c p.v f.attr b.attrLatchLo
    attrLatchHi := Config.ppuAttributeLatch true c p.v f.attr b.attrLatchHi }

/-- The background pixel, "from shifted pattern/attribute bits indexed by fine-X": the two attribute bits above
the two pattern bits. -/
def Ppu.bgPixel (p : Ppu) : BitVec 4 :=
  let b := p.pipe.bg
  let i := (Config.ppuPatternTap p.fineX).val
  let j := (Config.ppuAttributeTap p.fineX).val
  BitVec.ofBool (b.attrHi.getLsbD j) ++ BitVec.ofBool (b.attrLo.getLsbD j) ++
    BitVec.ofBool (b.patternHi.getLsbD i) ++ BitVec.ofBool (b.patternLo.getLsbD i)

/-- The pixel of a cycle: the background pixel composited "against up to 8 active sprite shift slots". -/
def Ppu.pixel (p : Ppu) : BitVec 6 :=
  Config.ppuComposite p.bgPixel p.pipe.sprites p.mask p.cycle.val p.palette

/-- The pipeline in one of the cycles 1 to 256: the pixel from the registers as they stand, then the fetch and
the shift. -/
def Ppu.pixelDot (cart : Cart) (p : Ppu) : Ppu :=
  { p with
    v := p.fetchVram
    spriteZeroHit := p.spriteZeroHit || Config.ppuSpriteZeroHit p.bgPixel p
    pipe :=
      { fetch := p.tileFetch cart
        bg := p.nextBg (p.tileFetch cart)
        sprites := p.pipe.sprites.map (Config.ppuSpriteShift p.cycle.val)
        out1 := p.pixel
        out2 := p.pipe.out1
        out3 := p.pipe.out2 } }

/-- A byte of sprite k (0 to 7) in secondary OAM: 0 its Y, 1 its tile, 2 its attribute byte, 3 its X. The spec names
the Y byte alone; the order is PRESUMED from the family (log 35). -/
def Ppu.secondaryByte (k : Fin 8) (j : Nat) (p : Ppu) : Byte := p.secondaryOam.read (4 * k.val + j)

/-- Slot k of the "8-sprite working set (shift data, attribute byte, x-counter) loaded from a 32-byte secondary OAM"
(60_exceptions.md R385). -/
def Ppu.loadedSlot (cart : Cart) (k : Fin 8) (p : Ppu) : SpriteSlot :=
  let y := p.secondaryByte k 0
  let attr := p.secondaryByte k 2
  let pattern := fun high =>
    cart.patternRead
      (Config.ppuSpritePatternIndex high p.ctrl y (p.secondaryByte k 1) attr p.scanline.val).toNat
  { shiftLo := Config.ppuSpriteShiftData p.ctrl y attr p.scanline.val (pattern false)
    shiftHi := Config.ppuSpriteShiftData p.ctrl y attr p.scanline.val (pattern true)
    attr := attr
    xCounter := p.secondaryByte k 3 }

/-- The cycle in which slot k is loaded. -/
def spriteLoadCycle (k : Fin 8) : Nat := 257 + (Config.ppuSpriteLoad k).val

/-- The slots after a cycle outside 1 to 256: each is loaded in one cycle of 257 to 340 and else kept (log 35). -/
def Ppu.tailSprites (cart : Cart) (p : Ppu) : Vector SpriteSlot 8 :=
  Vector.ofFn (fun k => if p.cycle.val = spriteLoadCycle k then p.loadedSlot cart k else p.pipe.sprites.get k)

/-- The pipeline in the other cycles of a visible scanline: the sprite slots are loaded, the fetch and the VRAM
address are free. -/
def Ppu.tailDot (cart : Cart) (p : Ppu) : Ppu :=
  let r := Config.ppuLineTail p cart
  { p with
    v := r.v
    pipe :=
      { fetch := r.fetch
        bg := p.nextBg r.fetch
        sprites := p.tailSprites cart
        out1 := p.pipe.out1
        out2 := p.pipe.out1
        out3 := p.pipe.out2 } }

/-- The pixel buffer after a cycle, "with a fixed 3-cycle output latency": the pixel of cycle c (1 to 256) is
written to column c - 1 in cycle c + 3. -/
def Ppu.output (p : Ppu) : Memory :=
  if 4 ≤ p.cycle.val ∧ p.cycle.val ≤ 259 then
    p.frame.write (p.scanline.val * 256 + (p.cycle.val - 4)) (p.pipe.out3.setWidth 8)
  else p.frame

/-- One dot of the pixel pipeline on a visible scanline. -/
def Ppu.renderEvents (cart : Cart) (p : Ppu) : Ppu :=
  { (if 1 ≤ p.cycle.val ∧ p.cycle.val ≤ 256 then p.pixelDot cart else p.tailDot cart) with
    frame := p.output }

/-- One PPU dot, the PPU's `cycle()` (60_exceptions.md R380, R386 to R391). -/
def Ppu.dot (cart : Cart) (p : Ppu) : Ppu :=
  let q := { p.advance.flagEvents with grace := p.grace - 1 }
  if q.scanline.val < 240 then (q.spriteEvents).renderEvents cart else q

/-! ## Host side (60_exceptions.md R386) -/

/-- `getFrame()`: "the most recently completed 256×240 palette-index buffer". -/
def Ppu.getFrame (p : Ppu) : Memory := p.lastFrame

/-- `endOfFrame()`: "signals frame boundary crossing for callers that poll"; set until the host takes it back by
`State.takeEndOfFrame` (DESIGN CHOICE, log 33). -/
def Ppu.endOfFrame (p : Ppu) : Bool := p.frameDone

end Sys2Proof.Machine
end

