-- ==== Sys2Proof/Machine/Bus.lean ====
section
/-! DEFINITION. The Console's bus dispatch and its lockstep stepping: what one read or write of one byte
returns and does, and what passes in one CPU cycle (20_memory.md R60 to R75, R80, R82; 60_exceptions.md R380 to R382). -/

namespace Sys2Proof.Machine

/-! ## The address map (20_memory.md R66, R69) -/

/-- The regions of the CPU's address space. -/
inductive Region where
  | ram (k : Nat)
  | ppu (port : BitVec 3)
  | io (r : BitVec 5)
  | cart
  deriving DecidableEq, Repr

/-- Which region answers: RAM byte `addr & 0x07FF`, PPU port `addr & 7`, APU/IO register, cartridge. -/
def region (a : Addr) : Region :=
  if a.toNat < 0x2000 then .ram (a.toNat % 0x800)
  else if a.toNat < 0x4000 then .ppu (a.setWidth 3)
  else if a.toNat < 0x4020 then .io (a.setWidth 5)
  else .cart

/-- The stored byte an address leads to, if it leads to one: RAM, PRG-RAM or PRG-ROM. Device ports and
addresses where nothing answers lead to none. -/
def Console.cellOf (a : Addr) (c : Console) : Option Cell :=
  match region a with
  | .ram k => some (.ram k)
  | .ppu _ => none
  | .io _ => none
  | .cart => c.cart.cellOf a

/-- The byte a cell holds. -/
def Console.byteOf (cell : Cell) (c : Console) : Byte :=
  match cell with
  | .ram k => c.ram.read k
  | .prgRam k => c.cart.prgRam.read k
  | .prgRom k => c.cart.prgRom.read k

/-- The stored byte behind an address, if one answers there: no side effect. -/
def Console.peek (a : Addr) (c : Console) : Option Byte := (c.cellOf a).map (fun cell => c.byteOf cell)

/-- The cell a store to an address changes, if any: a RAM or PRG-RAM byte (20_memory.md R82). -/
def Console.storeCell (a : Addr) (c : Console) : Option Cell :=
  match c.cellOf a with
  | some (.prgRom _) => none
  | r => r

/-! ## One access -/

/-- The byte a read of an APU/IO register returns (60_exceptions.md R394, R404; 20_memory.md R80; logs 18, 20). -/
def Console.ioValue (r : BitVec 5) (c : Console) : Byte :=
  match r.toNat with
  | 0x15 => c.apu.status
  | 0x16 => c.pad1.value c.strobe c.draws
  | 0x17 => c.pad2.value c.strobe c.draws
  | _ => Config.openBus c.draws

/-- The Console after a read of an APU/IO register. -/
def Console.ioReadEffect (r : BitVec 5) (c : Console) : Console :=
  match r.toNat with
  | 0x15 => { c with apu := c.apu.statusReadEffect }
  | 0x16 => { c with pad1 := c.pad1.afterRead c.strobe }
  | 0x17 => { c with pad2 := c.pad2.afterRead c.strobe }
  | _ => c

/-- The byte a read returns where no stored byte answers. -/
def Console.portValue (a : Addr) (c : Console) : Byte :=
  match region a with
  | .ppu port => c.ppu.portValue c.cart port c.draws
  | .io r => c.ioValue r
  | _ => Config.openBus c.draws

/-- The Console after a read where no stored byte answers. -/
def Console.portReadEffect (a : Addr) (c : Console) : Console :=
  match region a with
  | .ppu port => { c with ppu := c.ppu.portReadEffect c.cart port }
  | .io r => c.ioReadEffect r
  | _ => c

/-- `MemRead(addr, 1)`, its result (20_memory.md R64). -/
def Console.readByte (a : Addr) (c : Console) : Byte :=
  match c.cellOf a with
  | some cell => c.byteOf cell
  | none => c.portValue a

/-- `MemRead(addr, 1)`, its effect: none where a stored byte answers, else the port's, and one draw. -/
def Console.readEffect (a : Addr) (c : Console) : Console :=
  match c.cellOf a with
  | some _ => c
  | none => { c.portReadEffect a with draws := c.draws + 1 }

/-- A write of an APU/IO register (60_exceptions.md R394, R404, R405); the others have no effect (20_memory.md
R80; 92_eei_decisions.md D34). -/
def Console.ioWrite (r : BitVec 5) (v : Byte) (c : Console) : Console :=
  match r.toNat with
  | 0x14 => c
  | 0x15 => { c with apu := c.apu.writeControl v }
  | 0x16 =>
    { c with
      strobe := Config.strobeBit.on v
      pad1 := c.pad1.afterStrobe c.strobe (Config.strobeBit.on v)
      pad2 := c.pad2.afterStrobe c.strobe (Config.strobeBit.on v) }
  | 0x17 => { c with apu := c.apu.writeFrameCounter v }
  | k => if k < 0x14 then { c with apu := c.apu.writeRegister r v } else c

/-- `MemWrite(addr, 1, v)` (20_memory.md R64, R82). -/
def Console.writeByte (a : Addr) (v : Byte) (c : Console) : Console :=
  match region a with
  | .ram k => { c with ram := c.ram.write k v }
  | .ppu port =>
    { c with ppu := c.ppu.portWrite c.cart port v, cart := c.ppu.portWriteCart c.cart port v }
  | .io r => c.ioWrite r v
  | .cart => { c with cart := c.cart.cpuWrite a v }

/-! ## The debug port's raw memory byte read (10_state.md R44; 60_exceptions.md R364) -/

/-- The byte of a raw debug read: the stored byte, and where none answers a free value, or under
`DebugPorts.bus` what the bus gives (93_implementation_defined.md U16; log 31). -/
def Console.debugValue (d : DebugPorts) (a : Addr) (c : Console) : Byte :=
  match c.peek a, d with
  | some v, _ => v
  | none, .quiet => Config.debugByte a c.clock c.draws
  | none, .bus => c.portValue a

/-- The Console after a raw debug read: as before where a stored byte answers, else as the parameter says. -/
def Console.debugEffect (d : DebugPorts) (a : Addr) (c : Console) : Console :=
  match d with
  | .quiet => c
  | .bus => c.readEffect a

/-! ## One CPU cycle (20_memory.md R75; 60_exceptions.md R381) -/

/-- `f` applied `n` times. -/
def iterate {α : Type} (f : α → α) : Nat → α → α
  | 0, a => a
  | n + 1, a => iterate f n (f a)

/-- How many calls are due in a CPU cycle when `owed` parts of one are carried over from the cycles before. -/
def Ratio.due (owed : Nat) (r : Ratio) : Nat := (owed + r.calls) / r.cycles

/-- The parts of a call carried over to the next CPU cycle. -/
def Ratio.carry (owed : Nat) (r : Ratio) : Nat := (owed + r.calls) % r.cycles

/-- The PPU's share of a CPU cycle, where it falls now: the dots that `ppu_per_cpu` makes due (`CLOCK_RATIO`; log 4). -/
def Console.stepPpu (now : Bool) (p : Params) (c : Console) : Console :=
  if now then
    { c with
      ppu := iterate (Ppu.dot c.cart) (p.ppuPerCpu.due c.ppuOwed) c.ppu
      ppuOwed := p.ppuPerCpu.carry c.ppuOwed }
  else c

/-- The APU's share of a CPU cycle, where it falls now: the calls that `apu_per_cpu` makes due. -/
def Console.stepApu (now : Bool) (p : Params) (c : Console) : Console :=
  if now then
    { c with
      apu := iterate Apu.cycle (p.apuPerCpu.due c.apuOwed) c.apu
      apuOwed := p.apuPerCpu.carry c.apuOwed }
  else c

/-- What passes before the access of a CPU cycle. The order of the calls in a tick is open (91_not_in_source.md N16;
93_implementation_defined.md U7): each of PPU and APU has a parameter of its own that puts all its calls of the cycle
before or after the access. Neither reads the other, so their order on one side is no choice; that the calls of one
device are not split over the access is a DESIGN CHOICE (log 4). -/
def Console.beginCycle (p : Params) (c : Console) : Console := (c.stepPpu p.ppuFirst p).stepApu p.apuFirst p

/-- What passes after the access of a CPU cycle. -/
def Console.endCycle (p : Params) (c : Console) : Console :=
  let d := (c.stepPpu (!p.ppuFirst) p).stepApu (!p.apuFirst) p
  { d with cart := d.cart.clock, clock := d.clock + 1 }

/-- The byte a CPU cycle that reads `a` gets. -/
def Console.cycleValue (p : Params) (a : Addr) (c : Console) : Byte := (c.beginCycle p).readByte a

/-- The Console after a CPU cycle that reads `a`. -/
def Console.readCycle (p : Params) (a : Addr) (c : Console) : Console :=
  ((c.beginCycle p).readEffect a).endCycle p

/-- The Console after a CPU cycle that writes `v` at `a`. -/
def Console.writeCycle (p : Params) (a : Addr) (v : Byte) (c : Console) : Console :=
  ((c.beginCycle p).writeByte a v).endCycle p

/-- The Console after a CPU cycle that makes no access (`req = 0`, 10_state.md R41). -/
def Console.quietCycle (p : Params) (c : Console) : Console := (c.beginCycle p).endCycle p

end Sys2Proof.Machine
end

