-- ==== Sys2Proof/Machine/Flags.lean ====
section
/-! DEFINITION. Every flag computation of the spec: the status byte (10_state.md R23 to R33), the add,
subtract, compare, bit-test and shift rules (42_arithmetic_logic_compare.md; 43_shift_rotate_incdec.md). -/

namespace Sys2Proof.Machine

/-! ## The status byte -/

/-- `SetNZ(v)` (10_state.md R28): writes Z and N and no other flag. -/
def Status.setNZ (v : Byte) (p : Status) : Status := { p with z := v == 0, n := v.getLsbD 7 }

/-- `PackP(b54) = {N, V, b54[1], b54[0], D, I, Z, C}` (10_state.md R30). -/
def Status.pack (b54 : BitVec 2) (p : Status) : Byte :=
  BitVec.ofBool p.n ++ BitVec.ofBool p.v ++ b54 ++ BitVec.ofBool p.d ++ BitVec.ofBool p.i
    ++ BitVec.ofBool p.z ++ BitVec.ofBool p.c

/-- `UnpackP(v)` (10_state.md R31): bits 4 and 5 are ignored. -/
def Status.unpack (v : Byte) : Status where
  c := v.getLsbD 0
  z := v.getLsbD 1
  i := v.getLsbD 2
  d := v.getLsbD 3
  v := v.getLsbD 6
  n := v.getLsbD 7

/-! ## Add and subtract (42_arithmetic_logic_compare.md R201, R202) -/

/-- `un = A + m + c`, "an integer in 0 to 511". -/
def adcUnsigned (a m : Byte) (c : Bool) : Nat := a.toNat + m.toNat + c.toNat

/-- `sg = s8(A) + s8(m) + c`, "an integer in -256 to 255". -/
def adcSigned (a m : Byte) (c : Bool) : Int := a.toInt + m.toInt + c.toNat

/-- `un = A - m - b` with `b = 1 - P.C`. -/
def sbcUnsigned (a m : Byte) (c : Bool) : Int := (a.toNat : Int) - m.toNat - (!c).toNat

/-- `sg = s8(A) - s8(m) - b` with `b = 1 - P.C`. -/
def sbcSigned (a m : Byte) (c : Bool) : Int := a.toInt - m.toInt - (!c).toNat

/-- "overflow set when the signed result falls outside [-128,127]". -/
def outsideSigned (sg : Int) : Bool := decide (sg < -128) || decide (127 < sg)

/-- The 8-bit result of ADC. -/
def adcResult (a m : Byte) (c : Bool) : Byte := BitVec.ofNat 8 (adcUnsigned a m c)

/-- The 8-bit result of SBC. -/
def sbcResult (a m : Byte) (c : Bool) : Byte := BitVec.ofInt 8 (sbcUnsigned a m c)

/-- The flags after ADC: C, V, Z, N written; I, D kept; D not read (10_state.md R27). -/
def adcStatus (a m : Byte) (p : Status) : Status :=
  { p with
    c := decide (255 < adcUnsigned a m p.c)
    v := outsideSigned (adcSigned a m p.c)
    z := adcResult a m p.c == 0
    n := (adcResult a m p.c).getLsbD 7 }

/-- The flags after SBC. -/
def sbcStatus (a m : Byte) (p : Status) : Status :=
  { p with
    c := decide (0 ≤ sbcUnsigned a m p.c)
    v := outsideSigned (sbcSigned a m p.c)
    z := sbcResult a m p.c == 0
    n := (sbcResult a m p.c).getLsbD 7 }

/-! ## Compare and bit test (42_arithmetic_logic_compare.md R206 to R209) -/

/-- The flags after comparing register `r` with `m`: C on `≥`, Z on `=`, N bit 7 of the raw subtraction. -/
def compareStatus (r m : Byte) (p : Status) : Status :=
  { p with c := decide (m.toNat ≤ r.toNat), z := r == m, n := (r - m).getLsbD 7 }

/-- The flags after BIT: Z from `A & m`, N and V bits 7 and 6 of `m` itself. -/
def bitStatus (a m : Byte) (p : Status) : Status :=
  { p with z := (a &&& m) == 0, n := m.getLsbD 7, v := m.getLsbD 6 }

/-! ## Shifts and rotates (43_shift_rotate_incdec.md R230 to R233) -/

/-- `op_mod` of ASL. -/
def aslByte (v : Byte) : Byte := v <<< 1

/-- `op_mod` of LSR. -/
def lsrByte (v : Byte) : Byte := v >>> 1

/-- `op_mod` of ROL: the carry enters at bit 0. -/
def rolByte (v : Byte) (c : Bool) : Byte := (v <<< 1) ||| bit c

/-- `op_mod` of ROR: the carry enters at bit 7. -/
def rorByte (v : Byte) (c : Bool) : Byte := (v >>> 1) ||| (bit c <<< 7)

/-- The flags after a left shift or rotate of `v` to `r`: C is the old bit 7. -/
def shiftLeftStatus (v r : Byte) (p : Status) : Status := { p.setNZ r with c := v.getLsbD 7 }

/-- The flags after a right shift or rotate of `v` to `r`: C is the old bit 0. -/
def shiftRightStatus (v r : Byte) (p : Status) : Status := { p.setNZ r with c := v.getLsbD 0 }

end Sys2Proof.Machine
end

