-- ==== Sys2Proof/Machine/Ops.lean ====
section
/-! DEFINITION. The named operations on the state: bus cycles as the core makes them, instruction fetch,
push and pull, the interrupt check, TAKING an interrupt as one shared operation and the return from one,
the host's operations (20_memory.md R60 to R72; 40_addressing_and_cycles.md R121, R123; 60_exceptions.md R340 to R351; 10_state.md R42 to R45). -/

namespace Sys2Proof.Machine

/-- The three outcomes of a step, over this machine's types. -/
abbrev Outcome := Host.Outcome State Fault Refusal

/-! ## Registers -/

/-- `f` applied to the core. -/
def State.mapCpu (f : Cpu → Cpu) (s : State) : State := { s with cpu := f s.cpu }

/-- `PC <- target`. -/
def State.setPc (target : Addr) (s : State) : State := s.mapCpu (fun c => { c with pc := target })

/-- `PC <- u16(PC + 1)` (10_state.md R22). -/
def State.incPc (s : State) : State := s.setPc (s.cpu.pc + 1)

/-- `SP <- v`. -/
def State.setSp (v : Byte) (s : State) : State := s.mapCpu (fun c => { c with sp := v })

/-- `SP <- u8(SP + 1)` (10_state.md R21). -/
def State.incSp (s : State) : State := s.setSp (s.cpu.sp + 1)

/-- `SP <- u8(SP - 1)` (10_state.md R21). -/
def State.decSp (s : State) : State := s.setSp (s.cpu.sp - 1)

/-- The status register written whole. -/
def State.setP (p : Status) (s : State) : State := s.mapCpu (fun c => { c with p := p })

/-- `P.I <- 1`. -/
def State.maskIrq (s : State) : State := s.setP { s.cpu.p with i := true }

/-! ## Bus cycles -/

/-- The byte `MemRead(a, 1)` gets in the coming cycle. -/
def State.value (a : Addr) (s : State) : Byte := s.con.cycleValue s.params a

/-- The state after a cycle that reads `a`; registers are untouched. -/
def State.read (a : Addr) (s : State) : State := { s with con := s.con.readCycle s.params a }

/-- The state after a cycle that writes `v` at `a`; registers are untouched. -/
def State.write (a : Addr) (v : Byte) (s : State) : State :=
  { s with con := s.con.writeCycle s.params a v }

/-- The state after a cycle without an access. -/
def State.quiet (s : State) : State := { s with con := s.con.quietCycle s.params }

/-- `Dummy(read, a)` (40_addressing_and_cycles.md R123). -/
def State.dummyRead (a : Addr) (s : State) : State :=
  match s.params.dummyAccess with
  | .nmos => s.read a
  | .none => s.quiet

/-- `Dummy(write, a, v)` (40_addressing_and_cycles.md R123). -/
def State.dummyWrite (a : Addr) (v : Byte) (s : State) : State :=
  match s.params.dummyAccess with
  | .nmos => s.write a v
  | .none => s.quiet

/-- The byte `Fetch()` gets (30_encoding.md R92). -/
def State.fetchValue (s : State) : Byte := s.value s.cpu.pc

/-- The state after `Fetch()`: one read at PC, then `PC <- u16(PC + 1)` (30_encoding.md R92). -/
def State.fetch (s : State) : State := (s.read s.cpu.pc).incPc

/-- `Push(v)` (20_memory.md R70): "push decrements stack pointer after write". -/
def State.push (v : Byte) (s : State) : State := (s.write (stackAddr s.cpu.sp) v).decSp

/-- The byte at the stack pointer, the read half of `Pull()` (20_memory.md R71; the increment stands in
the row before, 40_addressing_and_cycles.md R146). -/
def State.stackValue (s : State) : Byte := s.value (stackAddr s.cpu.sp)

/-- The state after a read at the stack pointer. -/
def State.stackRead (s : State) : State := s.read (stackAddr s.cpu.sp)

/-- The row that makes a pull's increment: a dummy read at the old stack pointer, then `SP <- u8(SP + 1)`. -/
def State.pullRow (s : State) : State := (s.dummyRead (stackAddr s.cpu.sp)).incSp

/-! ## Vectors (60_exceptions.md R349) -/

/-- `VEC_NMI`. -/
def vecNmi : Addr := 0xFFFA

/-- `VEC_RESET`. -/
def vecReset : Addr := 0xFFFC

/-- `VEC_IRQ_BRK`. -/
def vecIrqBrk : Addr := 0xFFFE

/-- The vector of a hardware sequence. -/
def vectorOf : Seq → Addr
  | .nmi => vecNmi
  | .reset => vecReset
  | .irq => vecIrqBrk
  | .instr => vecIrqBrk

/-! ## Taking an interrupt (60_exceptions.md R345 to R350; 45_stack_flag_system.md R303) -/

/-- Rows 6 and 7 of every sequence: `I <- 1`, `PC <- {MemRead(vec + 1), MemRead(vec)}`. -/
def State.enterVector (vec : Addr) (s : State) : State :=
  let low := s.value vec
  let s1 := (s.read vec).maskIrq
  let high := s1.value (vec + 1)
  (s1.read (vec + 1)).setPc (word high low)

/-- TAKING AN INTERRUPT, rows 3 to 7 of BRK, IRQ and NMI: push PC high, PC low and the status byte with
bits 5:4 = `b54`, then set I and load PC from the vector. -/
def State.takeInterrupt (b54 : BitVec 2) (vec : Addr) (s : State) : State :=
  let s1 := s.push (hi s.cpu.pc)
  let s2 := s1.push (lo s.cpu.pc)
  let s3 := s2.push (s2.cpu.p.pack b54)
  s3.enterVector vec

/-- A RESET row 3, 4 or 5: a read of the stack in place of the push, `SP` lowered, nothing written. -/
def State.resetRow (s : State) : State := (s.dummyRead (stackAddr s.cpu.sp)).decSp

/-- Rows 1 and 2 of a hardware sequence: two dummy reads at PC, PC not incremented. -/
def State.sequenceHead (s : State) : State := (s.dummyRead s.cpu.pc).dummyRead s.cpu.pc

/-- The whole 7-cycle sequence the interrupt check has selected (60_exceptions.md R345). -/
def State.runSequence (q : Seq) (s : State) : State :=
  match q with
  | .reset => s.sequenceHead.resetRow.resetRow.resetRow.enterVector (vectorOf .reset)
  | q => s.sequenceHead.takeInterrupt s.params.pushBitsHw (vectorOf q)

/-- RETURN FROM INTERRUPT, rows 3 to 6 of RTI: pull the status byte (bits 5:4 ignored), PC low, PC high;
no `+ 1` (45_stack_flag_system.md R304; 60_exceptions.md R351). -/
def State.returnFromInterrupt (s : State) : State :=
  let s1 := s.pullRow
  let s2 := (s1.stackRead.setP (Status.unpack s1.stackValue)).incSp
  let s3 := s2.stackRead.incSp
  s3.stackRead.setPc (word s3.stackValue s2.stackValue)

/-! ## The interrupt check (60_exceptions.md R340 to R343) -/

/-- The request the check selects: RESET, then NMI, then IRQ if `I = 0` (60_exceptions.md R341). -/
def Cpu.selected (c : Cpu) : Option Seq :=
  if c.resetReq then some .reset
  else if c.nmiReq then some .nmi
  else if c.irqReq && !c.p.i then some .irq
  else none

/-- The core after the check: the selected request's flag is cleared, the others stay; with `drop` a masked
IRQ that the check looked at is cleared (60_exceptions.md R341, R342; log 27). -/
def Cpu.afterCheck (policy : IrqMasked) (c : Cpu) : Cpu :=
  match c.selected with
  | some .reset => { c with resetReq := false }
  | some .nmi => { c with nmiReq := false }
  | some .irq => { c with irqReq := false }
  | some .instr => c
  | none =>
    match policy with
    | .hold => c
    | .drop => { c with irqReq := false }

/-- The state after the check. -/
def State.afterCheck (s : State) : State := s.mapCpu (Cpu.afterCheck s.params.irqMasked)

/-- The state the illegal-opcode fault leaves, `s` the state after the opcode fetch (60_exceptions.md R332). -/
def State.withFault (b : Byte) (s : State) : State := s.mapCpu (fun c => { c with fault := some b })

/-! ## The host (10_state.md R42 to R45) -/

/-- `raiseReset` (10_state.md R36, R42; 60_exceptions.md R343). -/
def State.raiseReset (s : State) : State := s.mapCpu (fun c => { c with resetReq := true })

/-- `raiseNMI`. -/
def State.raiseNmi (s : State) : State := s.mapCpu (fun c => { c with nmiReq := true })

/-- `raiseIRQ`. -/
def State.raiseIrq (s : State) : State := s.mapCpu (fun c => { c with irqReq := true })

/-- The host's reset button: the core's request, and the PPU's grace period begins again "after
power-on/reset" (60_exceptions.md R390; 70_reset_and_hazards.md R435; log 23). Whether the Console also resets the
PPU, the APU and the mapper "is not stated" (R435): that nothing of them but the grace counter changes is a DESIGN
CHOICE (log 23). -/
def State.pressReset (s : State) : State :=
  let r := s.raiseReset
  { r with con := { r.con with ppu := { r.con.ppu with grace := s.params.ppuGrace } } }

/-- The host pushes the buttons of the two controllers (60_exceptions.md R404). -/
def State.setButtons (b1 b2 : Byte) (s : State) : State :=
  { s with con := { s.con with
      pad1 := { s.con.pad1 with buttons := b1 }
      pad2 := { s.con.pad2 with buttons := b2 } } }

/-- The host polls and takes back the end-of-frame signal. The spec says only that it "signals frame boundary
crossing for callers that poll" (60_exceptions.md R386): that it stays set until the host takes it back is a DESIGN
CHOICE (log 33). -/
def State.takeEndOfFrame (s : State) : State :=
  { s with con := { s.con with ppu := { s.con.ppu with frameDone := false } } }

/-- The status byte as the debug accessor returns it; bits 5 and 4 are any value (10_state.md R44; U6). -/
def State.statusAccessor (s : State) : Byte := s.cpu.p.pack (Config.debugStatusBits s.con.clock)

/-- The raw memory byte read of the debug port, the byte (10_state.md R44; log 31). -/
def State.debugValue (a : Addr) (s : State) : Byte := s.con.debugValue s.params.debugPorts a

/-- The raw memory byte read of the debug port, the state after it: the core is untouched. -/
def State.debugRead (a : Addr) (s : State) : State :=
  { s with con := s.con.debugEffect s.params.debugPorts a }

/-- A byte put straight into the cell behind an address, as the loader does (10_state.md R45). -/
def Console.poke (a : Addr) (v : Byte) (c : Console) : Console :=
  match c.cellOf a with
  | some (.ram k) => { c with ram := c.ram.write k v }
  | some (.prgRam k) => { c with cart := { c.cart with prgRam := c.cart.prgRam.write k v } }
  | some (.prgRom k) => { c with cart := { c.cart with prgRom := c.cart.prgRom.write k v } }
  | none => c

end Sys2Proof.Machine
end

