-- ==== Sys2Proof/Machine/Operands.lean ====
section
/-! DEFINITION. The memory operand forms: effective address, page crossing, the cycles that precede the
effective access, and the three access classes (40_addressing_and_cycles.md R124 to R134, R138; 30_encoding.md R96). -/

namespace Sys2Proof.Machine

/-- A memory operand with its operand bytes (00_scope.md R14; 30_encoding.md R96). -/
inductive Mem where
  | zp (d : Byte)
  | zpx (d : Byte)
  | zpy (d : Byte)
  | abs (w : Addr)
  | abx (w : Addr)
  | aby (w : Addr)
  | izx (d : Byte)
  | izy (d : Byte)
  deriving DecidableEq, Repr

/-- The word behind the zero-page pointer `p`: low byte at `{0x00, p}`, high byte at `{0x00, u8(p + 1)}`
(20_memory.md R62). Page zero is RAM (R67), so reading it has no side effect and no cycle changes it. -/
def Console.zeroPageWord (p : Byte) (c : Console) : Addr :=
  word (c.ram.read (p + 1).toNat) (c.ram.read p.toNat)

/-- The base address of the indexed modes ABX, ABY, IZY (40_addressing_and_cycles.md R134); of the other modes
the effective address itself. -/
def State.base (s : State) : Mem → Addr
  | .zp d => zeroPage d
  | .zpx d => zeroPage (d + s.cpu.x)
  | .zpy d => zeroPage (d + s.cpu.y)
  | .abs w => w
  | .abx w => w
  | .aby w => w
  | .izx d => s.con.zeroPageWord (d + s.cpu.x)
  | .izy d => s.con.zeroPageWord d

/-- The index the modes ABX, ABY, IZY add to their base. -/
def State.index (s : State) : Mem → Byte
  | .abx _ => s.cpu.x
  | .aby _ => s.cpu.y
  | .izy _ => s.cpu.y
  | _ => 0

/-- The effective address (40_addressing_and_cycles.md R138). -/
def State.ea (m : Mem) (s : State) : Addr := s.base m + zext16 (s.index m)

/-- The page-cross test: "comparing the high byte of the base address before and after adding the index"
(40_addressing_and_cycles.md R134). -/
def State.crosses (m : Mem) (s : State) : Bool := hi (s.ea m) != hi (s.base m)

/-- The address with the low byte indexed and the page not yet corrected (40_addressing_and_cycles.md R130). -/
def State.uncorrected (m : Mem) (s : State) : Addr := word (hi (s.base m)) (lo (s.ea m))

/-- The cycles between the operand fetch and the effective access (40_addressing_and_cycles.md R127 to R133);
`writes` is true in the write and modify classes, which "always pay the penalty" (R151). -/
def State.addressCycles (writes : Bool) (m : Mem) (s : State) : State :=
  match m with
  | .zp _ => s
  | .abs _ => s
  | .zpx d => s.dummyRead (zeroPage d)
  | .zpy d => s.dummyRead (zeroPage d)
  | .abx _ => if writes || s.crosses m then s.dummyRead (s.uncorrected m) else s
  | .aby _ => if writes || s.crosses m then s.dummyRead (s.uncorrected m) else s
  | .izx d =>
    ((s.dummyRead (zeroPage d)).read (zeroPage (d + s.cpu.x))).read (zeroPage (d + s.cpu.x + 1))
  | .izy d =>
    let r := (s.read (zeroPage d)).read (zeroPage (d + 1))
    if writes || s.crosses m then r.dummyRead (s.uncorrected m) else r

/-- The operand byte `m` of a read-class instruction. -/
def State.operand (m : Mem) (s : State) : Byte := (s.addressCycles false m).value (s.ea m)

/-- The state after the cycles of a read-class instruction. -/
def State.operandRead (m : Mem) (s : State) : State := (s.addressCycles false m).read (s.ea m)

/-- The state after the cycles of a write-class instruction that stores `v`. -/
def State.operandWrite (m : Mem) (v : Byte) (s : State) : State :=
  (s.addressCycles true m).write (s.ea m) v

/-- The old byte a modify-class instruction reads. -/
def State.oldByte (m : Mem) (s : State) : Byte := (s.addressCycles true m).value (s.ea m)

/-- The state after the cycles of a modify-class instruction that turns `old` into `new`: read, dummy write
of the old byte, write of the new one (40_addressing_and_cycles.md R131). -/
def State.operandModify (m : Mem) (new : Byte) (s : State) : State :=
  (((s.addressCycles true m).read (s.ea m)).dummyWrite (s.ea m) (s.oldByte m)).write (s.ea m) new

/-! ## The access classes (40_addressing_and_cycles.md R124, R147) -/

/-- A read-class instruction with a memory operand. -/
def readClass (op : Byte → Cpu → Cpu) (m : Mem) (s : State) : Outcome :=
  .next ((s.operandRead m).mapCpu (op (s.operand m)))

/-- A read-class instruction with an immediate operand: the operand byte has been fetched (R126). -/
def immediateClass (op : Byte → Cpu → Cpu) (d : Byte) (s : State) : Outcome := .next (s.mapCpu (op d))

/-- A write-class instruction. -/
def writeClass (reg : Cpu → Byte) (m : Mem) (s : State) : Outcome :=
  .next (s.operandWrite m (reg s.cpu))

/-- A modify-class instruction with a memory operand: `new` computes the byte, `flags` the status. -/
def modifyClass (new : Byte → Status → Byte) (flags : Byte → Status → Status) (m : Mem) (s : State) : Outcome :=
  .next ((s.operandModify m (new (s.oldByte m) s.cpu.p)).setP (flags (s.oldByte m) s.cpu.p))

/-- A shift or rotate of the accumulator (mode ACC, R125). -/
def accumulatorClass (new : Byte → Status → Byte) (flags : Byte → Status → Status) (s : State) : Outcome :=
  .next ((s.dummyRead s.cpu.pc).mapCpu
    (fun c => { c with a := new c.a c.p, p := flags c.a c.p }))

/-- A one-byte register or flag instruction (mode IMP, R125). -/
def impliedClass (op : Cpu → Cpu) (s : State) : Outcome := .next ((s.dummyRead s.cpu.pc).mapCpu op)

end Sys2Proof.Machine
end

