-- ==== Sys2Proof/Machine/Arith.lean ====
section
/-! DEFINITION. The meanings of the add, subtract, logic, compare, bit test
(42_arithmetic_logic_compare.md R200 to R210; rule numbers without a file are that file's). A meaning runs on
the state after the instruction's bytes have been fetched (log 24). -/

namespace Sys2Proof.Machine

/-! ## What each mnemonic does to the registers -/

/-- ADC: `A <- u8(un)` and C, V, Z, N (R201). -/
def Cpu.adc (m : Byte) (c : Cpu) : Cpu :=
  { c with a := adcResult c.a m c.p.c, p := adcStatus c.a m c.p }

/-- SBC: `A <- u8(un)` and C, V, Z, N (R202). -/
def Cpu.sbc (m : Byte) (c : Cpu) : Cpu :=
  { c with a := sbcResult c.a m c.p.c, p := sbcStatus c.a m c.p }

/-- AND: `A <- A & m`; `SetNZ(A & m)` (R203). -/
def Cpu.and (m : Byte) (c : Cpu) : Cpu := { c with a := c.a &&& m, p := c.p.setNZ (c.a &&& m) }

/-- ORA: `A <- A | m`; `SetNZ(A | m)` (R204). -/
def Cpu.ora (m : Byte) (c : Cpu) : Cpu := { c with a := c.a ||| m, p := c.p.setNZ (c.a ||| m) }

/-- EOR: `A <- A ^ m`; `SetNZ(A ^ m)` (R205). -/
def Cpu.eor (m : Byte) (c : Cpu) : Cpu := { c with a := c.a ^^^ m, p := c.p.setNZ (c.a ^^^ m) }

/-- CMP: C, Z, N from `A - m`; `A` is not written (R206). -/
def Cpu.cmp (m : Byte) (c : Cpu) : Cpu := { c with p := compareStatus c.a m c.p }

/-- CPX: "as CMP with `X` in place of `A`" (R207). -/
def Cpu.cpx (m : Byte) (c : Cpu) : Cpu := { c with p := compareStatus c.x m c.p }

/-- CPY: "as CMP with `Y` in place of `A`" (R208). -/
def Cpu.cpy (m : Byte) (c : Cpu) : Cpu := { c with p := compareStatus c.y m c.p }

/-- BIT: Z from `A & m`, N and V from `m`; `A` is not written (R209). -/
def Cpu.bit (m : Byte) (c : Cpu) : Cpu := { c with p := bitStatus c.a m c.p }

/-! ## The meanings -/

/-- ADC immediate, opcode 69 (R201). -/
def execAdcImm (d : Byte) (s : State) : Outcome := immediateClass Cpu.adc d s

/-- ADC zero page, opcode 65 (R201). -/
def execAdcZp (d : Byte) (s : State) : Outcome := readClass Cpu.adc (.zp d) s

/-- ADC zero page,X, opcode 75 (R201). -/
def execAdcZpx (d : Byte) (s : State) : Outcome := readClass Cpu.adc (.zpx d) s

/-- ADC absolute, opcode 6D (R201). -/
def execAdcAbs (w : Addr) (s : State) : Outcome := readClass Cpu.adc (.abs w) s

/-- ADC absolute,X, opcode 7D (R201). -/
def execAdcAbx (w : Addr) (s : State) : Outcome := readClass Cpu.adc (.abx w) s

/-- ADC absolute,Y, opcode 79 (R201). -/
def execAdcAby (w : Addr) (s : State) : Outcome := readClass Cpu.adc (.aby w) s

/-- ADC (zp,X), opcode 61 (R201). -/
def execAdcIzx (d : Byte) (s : State) : Outcome := readClass Cpu.adc (.izx d) s

/-- ADC (zp),Y, opcode 71 (R201). -/
def execAdcIzy (d : Byte) (s : State) : Outcome := readClass Cpu.adc (.izy d) s

/-- SBC immediate, opcode E9 (R202). -/
def execSbcImm (d : Byte) (s : State) : Outcome := immediateClass Cpu.sbc d s

/-- SBC zero page, opcode E5 (R202). -/
def execSbcZp (d : Byte) (s : State) : Outcome := readClass Cpu.sbc (.zp d) s

/-- SBC zero page,X, opcode F5 (R202). -/
def execSbcZpx (d : Byte) (s : State) : Outcome := readClass Cpu.sbc (.zpx d) s

/-- SBC absolute, opcode ED (R202). -/
def execSbcAbs (w : Addr) (s : State) : Outcome := readClass Cpu.sbc (.abs w) s

/-- SBC absolute,X, opcode FD (R202). -/
def execSbcAbx (w : Addr) (s : State) : Outcome := readClass Cpu.sbc (.abx w) s

/-- SBC absolute,Y, opcode F9 (R202). -/
def execSbcAby (w : Addr) (s : State) : Outcome := readClass Cpu.sbc (.aby w) s

/-- SBC (zp,X), opcode E1 (R202). -/
def execSbcIzx (d : Byte) (s : State) : Outcome := readClass Cpu.sbc (.izx d) s

/-- SBC (zp),Y, opcode F1 (R202). -/
def execSbcIzy (d : Byte) (s : State) : Outcome := readClass Cpu.sbc (.izy d) s

/-- AND immediate, opcode 29 (R203). -/
def execAndImm (d : Byte) (s : State) : Outcome := immediateClass Cpu.and d s

/-- AND zero page, opcode 25 (R203). -/
def execAndZp (d : Byte) (s : State) : Outcome := readClass Cpu.and (.zp d) s

/-- AND zero page,X, opcode 35 (R203). -/
def execAndZpx (d : Byte) (s : State) : Outcome := readClass Cpu.and (.zpx d) s

/-- AND absolute, opcode 2D (R203). -/
def execAndAbs (w : Addr) (s : State) : Outcome := readClass Cpu.and (.abs w) s

/-- AND absolute,X, opcode 3D (R203). -/
def execAndAbx (w : Addr) (s : State) : Outcome := readClass Cpu.and (.abx w) s

/-- AND absolute,Y, opcode 39 (R203). -/
def execAndAby (w : Addr) (s : State) : Outcome := readClass Cpu.and (.aby w) s

/-- AND (zp,X), opcode 21 (R203). -/
def execAndIzx (d : Byte) (s : State) : Outcome := readClass Cpu.and (.izx d) s

/-- AND (zp),Y, opcode 31 (R203). -/
def execAndIzy (d : Byte) (s : State) : Outcome := readClass Cpu.and (.izy d) s

/-- ORA immediate, opcode 09 (R204). -/
def execOraImm (d : Byte) (s : State) : Outcome := immediateClass Cpu.ora d s

/-- ORA zero page, opcode 05 (R204). -/
def execOraZp (d : Byte) (s : State) : Outcome := readClass Cpu.ora (.zp d) s

/-- ORA zero page,X, opcode 15 (R204). -/
def execOraZpx (d : Byte) (s : State) : Outcome := readClass Cpu.ora (.zpx d) s

/-- ORA absolute, opcode 0D (R204). -/
def execOraAbs (w : Addr) (s : State) : Outcome := readClass Cpu.ora (.abs w) s

/-- ORA absolute,X, opcode 1D (R204). -/
def execOraAbx (w : Addr) (s : State) : Outcome := readClass Cpu.ora (.abx w) s

/-- ORA absolute,Y, opcode 19 (R204). -/
def execOraAby (w : Addr) (s : State) : Outcome := readClass Cpu.ora (.aby w) s

/-- ORA (zp,X), opcode 01 (R204). -/
def execOraIzx (d : Byte) (s : State) : Outcome := readClass Cpu.ora (.izx d) s

/-- ORA (zp),Y, opcode 11 (R204). -/
def execOraIzy (d : Byte) (s : State) : Outcome := readClass Cpu.ora (.izy d) s

/-- EOR immediate, opcode 49 (R205). -/
def execEorImm (d : Byte) (s : State) : Outcome := immediateClass Cpu.eor d s

/-- EOR zero page, opcode 45 (R205). -/
def execEorZp (d : Byte) (s : State) : Outcome := readClass Cpu.eor (.zp d) s

/-- EOR zero page,X, opcode 55 (R205). -/
def execEorZpx (d : Byte) (s : State) : Outcome := readClass Cpu.eor (.zpx d) s

/-- EOR absolute, opcode 4D (R205). -/
def execEorAbs (w : Addr) (s : State) : Outcome := readClass Cpu.eor (.abs w) s

/-- EOR absolute,X, opcode 5D (R205). -/
def execEorAbx (w : Addr) (s : State) : Outcome := readClass Cpu.eor (.abx w) s

/-- EOR absolute,Y, opcode 59 (R205). -/
def execEorAby (w : Addr) (s : State) : Outcome := readClass Cpu.eor (.aby w) s

/-- EOR (zp,X), opcode 41 (R205). -/
def execEorIzx (d : Byte) (s : State) : Outcome := readClass Cpu.eor (.izx d) s

/-- EOR (zp),Y, opcode 51 (R205). -/
def execEorIzy (d : Byte) (s : State) : Outcome := readClass Cpu.eor (.izy d) s

/-- CMP immediate, opcode C9 (R206). -/
def execCmpImm (d : Byte) (s : State) : Outcome := immediateClass Cpu.cmp d s

/-- CMP zero page, opcode C5 (R206). -/
def execCmpZp (d : Byte) (s : State) : Outcome := readClass Cpu.cmp (.zp d) s

/-- CMP zero page,X, opcode D5 (R206). -/
def execCmpZpx (d : Byte) (s : State) : Outcome := readClass Cpu.cmp (.zpx d) s

/-- CMP absolute, opcode CD (R206). -/
def execCmpAbs (w : Addr) (s : State) : Outcome := readClass Cpu.cmp (.abs w) s

/-- CMP absolute,X, opcode DD (R206). -/
def execCmpAbx (w : Addr) (s : State) : Outcome := readClass Cpu.cmp (.abx w) s

/-- CMP absolute,Y, opcode D9 (R206). -/
def execCmpAby (w : Addr) (s : State) : Outcome := readClass Cpu.cmp (.aby w) s

/-- CMP (zp,X), opcode C1 (R206). -/
def execCmpIzx (d : Byte) (s : State) : Outcome := readClass Cpu.cmp (.izx d) s

/-- CMP (zp),Y, opcode D1 (R206). -/
def execCmpIzy (d : Byte) (s : State) : Outcome := readClass Cpu.cmp (.izy d) s

/-- CPX immediate, opcode E0 (R207). -/
def execCpxImm (d : Byte) (s : State) : Outcome := immediateClass Cpu.cpx d s

/-- CPX zero page, opcode E4 (R207). -/
def execCpxZp (d : Byte) (s : State) : Outcome := readClass Cpu.cpx (.zp d) s

/-- CPX absolute, opcode EC (R207). -/
def execCpxAbs (w : Addr) (s : State) : Outcome := readClass Cpu.cpx (.abs w) s

/-- CPY immediate, opcode C0 (R208). -/
def execCpyImm (d : Byte) (s : State) : Outcome := immediateClass Cpu.cpy d s

/-- CPY zero page, opcode C4 (R208). -/
def execCpyZp (d : Byte) (s : State) : Outcome := readClass Cpu.cpy (.zp d) s

/-- CPY absolute, opcode CC (R208). -/
def execCpyAbs (w : Addr) (s : State) : Outcome := readClass Cpu.cpy (.abs w) s

/-- BIT zero page, opcode 24 (R209). -/
def execBitZp (d : Byte) (s : State) : Outcome := readClass Cpu.bit (.zp d) s

/-- BIT absolute, opcode 2C (R209). -/
def execBitAbs (w : Addr) (s : State) : Outcome := readClass Cpu.bit (.abs w) s

end Sys2Proof.Machine
end

