-- ==== Sys2Proof/Machine/Branch.lean ====
section
/-! DEFINITION. The meanings of the branches, jumps, subroutines
(44_branch_jump_subroutine.md R260 to R273; rule numbers without a file are that file's). A meaning runs on
the state after the instruction's bytes have been fetched (log 24). -/

namespace Sys2Proof.Machine

/-! ## Conditions and the branch rule (R260; 40_addressing_and_cycles.md R135) -/

/-- `cond` of BPL (R261). -/
def condPl (p : Status) : Bool := !p.n

/-- `cond` of BMI (R262). -/
def condMi (p : Status) : Bool := p.n

/-- `cond` of BVC (R263). -/
def condVc (p : Status) : Bool := !p.v

/-- `cond` of BVS (R264). -/
def condVs (p : Status) : Bool := p.v

/-- `cond` of BCC (R265). -/
def condCc (p : Status) : Bool := !p.c

/-- `cond` of BCS (R266). -/
def condCs (p : Status) : Bool := p.c

/-- `cond` of BNE (R267). -/
def condNe (p : Status) : Bool := !p.z

/-- `cond` of BEQ (R268). -/
def condEq (p : Status) : Bool := p.z

/-- `target = u16(pcn + sext_16(d8))` (30_encoding.md R97). -/
def branchTarget (pcn : Addr) (d : Byte) : Addr := pcn + sext16 d

/-- The address with the low byte of the target and the page of `pcn`. -/
def branchUncorrected (pcn : Addr) (d : Byte) : Addr := word (hi pcn) (lo (branchTarget pcn d))

/-- The branch leaves the page of `pcn`. -/
def branchCrosses (pcn : Addr) (d : Byte) : Bool := hi (branchTarget pcn d) != hi pcn

/-- A taken branch, rows 3 and 4. -/
def State.takeBranch (d : Byte) (s : State) : State :=
  let pcn := s.cpu.pc
  let s3 := (s.dummyRead pcn).setPc (branchUncorrected pcn d)
  if branchCrosses pcn d then
    (s3.dummyRead (branchUncorrected pcn d)).setPc (branchTarget pcn d)
  else s3

/-- "`if cond then PC <- u16(pcn + sext_16(d8)) else PC <- pcn`"; `pcn` is PC once both bytes are fetched. -/
def branchClass (cond : Status → Bool) (d : Byte) (s : State) : Outcome :=
  .next (if cond s.cpu.p then s.takeBranch d else s)

/-! ## Jumps and subroutines -/

/-- The second address of a JMP indirect pointer: the low byte wraps, the page stays (R270;
40_addressing_and_cycles.md R136). -/
def pointerHigh (w : Addr) : Addr := word (hi w) (lo w + 1)

/-- JMP indirect, rows 4 and 5. -/
def State.jumpIndirect (w : Addr) (s : State) : State :=
  let s4 := s.read w
  (s4.read (pointerHigh w)).setPc (word (s4.value (pointerHigh w)) (s.value w))

/-- JSR, rows 3 to 6: PC is at the third byte; it is pushed and the byte read last (log 8). -/
def State.callSubroutine (low : Byte) (s : State) : State :=
  let s5 := ((s.dummyRead (stackAddr s.cpu.sp)).push (hi s.cpu.pc)).push (lo s.cpu.pc)
  (s5.read s5.cpu.pc).setPc (word (s5.value s5.cpu.pc) low)

/-- RTS, rows 2 to 6. -/
def State.returnFromSubroutine (s : State) : State :=
  let s3 := (s.dummyRead s.cpu.pc).pullRow
  let s4 := s3.stackRead.incSp
  let s5 := s4.stackRead.setPc (word s4.stackValue s3.stackValue)
  (s5.dummyRead s5.cpu.pc).incPc

/-! ## The meanings -/

/-- BPL, opcode 10 (R261). -/
def execBpl (d : Byte) (s : State) : Outcome := branchClass condPl d s

/-- BMI, opcode 30 (R262). -/
def execBmi (d : Byte) (s : State) : Outcome := branchClass condMi d s

/-- BVC, opcode 50 (R263). -/
def execBvc (d : Byte) (s : State) : Outcome := branchClass condVc d s

/-- BVS, opcode 70 (R264). -/
def execBvs (d : Byte) (s : State) : Outcome := branchClass condVs d s

/-- BCC, opcode 90 (R265). -/
def execBcc (d : Byte) (s : State) : Outcome := branchClass condCc d s

/-- BCS, opcode B0 (R266). -/
def execBcs (d : Byte) (s : State) : Outcome := branchClass condCs d s

/-- BNE, opcode D0 (R267). -/
def execBne (d : Byte) (s : State) : Outcome := branchClass condNe d s

/-- BEQ, opcode F0 (R268). -/
def execBeq (d : Byte) (s : State) : Outcome := branchClass condEq d s

/-- JMP absolute, opcode 4C (R269). -/
def execJmpAbs (w : Addr) (s : State) : Outcome := .next (s.setPc w)

/-- JMP (absolute), opcode 6C (R270). -/
def execJmpInd (w : Addr) (s : State) : Outcome := .next (s.jumpIndirect w)

/-- JSR, opcode 20 (R271). -/
def execJsr (w : Addr) (s : State) : Outcome := .next (s.callSubroutine (lo w))

/-- RTS, opcode 60 (R272). -/
def execRts (s : State) : Outcome := .next s.returnFromSubroutine

end Sys2Proof.Machine
end

