-- ==== Sys2Proof/Syntax.lean ====
section
/-! DEFINITION. The syntax of the instruction set: addressing modes, mnemonics, and `Instr` with one
constructor per row of spec/opcode_table.json (30_encoding.md R98, R106; 00_scope.md R14). An operand is as wide
as its encoding, so every operand value is legal (R104). -/

namespace Sys2Proof

/-- The thirteen addressing-mode tags (00_scope.md R14). -/
inductive Mode where
  | imp
  | acc
  | imm
  | zp
  | zpx
  | zpy
  | abs
  | abx
  | aby
  | ind
  | izx
  | izy
  | rel
  deriving DecidableEq, Repr

/-- The 56 mnemonics (30_encoding.md R106). -/
inductive Mnemonic where
  | lda
  | ldx
  | ldy
  | sta
  | stx
  | sty
  | tax
  | tay
  | txa
  | tya
  | tsx
  | txs
  | adc
  | sbc
  | and
  | ora
  | eor
  | cmp
  | cpx
  | cpy
  | bit
  | asl
  | lsr
  | rol
  | ror
  | inc
  | dec
  | inx
  | iny
  | dex
  | dey
  | bpl
  | bmi
  | bvc
  | bvs
  | bcc
  | bcs
  | bne
  | beq
  | jmp
  | jsr
  | rts
  | pha
  | php
  | pla
  | plp
  | clc
  | sec
  | cli
  | sei
  | cld
  | sed
  | clv
  | nop
  | brk
  | rti
  deriving DecidableEq, Repr

/-- An instruction: one constructor per row of the opcode table. -/
inductive Instr where
  -- 41_load_store_transfer.md
  /-- LDA immediate, opcode 0xA9 (R170). -/
  | ldaImm (d8 : Byte)
  /-- LDA zero page, opcode 0xA5 (R170). -/
  | ldaZp (d8 : Byte)
  /-- LDA zero page,X, opcode 0xB5 (R170). -/
  | ldaZpx (d8 : Byte)
  /-- LDA absolute, opcode 0xAD (R170). -/
  | ldaAbs (d16 : Addr)
  /-- LDA absolute,X, opcode 0xBD (R170). -/
  | ldaAbx (d16 : Addr)
  /-- LDA absolute,Y, opcode 0xB9 (R170). -/
  | ldaAby (d16 : Addr)
  /-- LDA (zp,X), opcode 0xA1 (R170). -/
  | ldaIzx (d8 : Byte)
  /-- LDA (zp),Y, opcode 0xB1 (R170). -/
  | ldaIzy (d8 : Byte)
  /-- LDX immediate, opcode 0xA2 (R171). -/
  | ldxImm (d8 : Byte)
  /-- LDX zero page, opcode 0xA6 (R171). -/
  | ldxZp (d8 : Byte)
  /-- LDX zero page,Y, opcode 0xB6 (R171). -/
  | ldxZpy (d8 : Byte)
  /-- LDX absolute, opcode 0xAE (R171). -/
  | ldxAbs (d16 : Addr)
  /-- LDX absolute,Y, opcode 0xBE (R171). -/
  | ldxAby (d16 : Addr)
  /-- LDY immediate, opcode 0xA0 (R172). -/
  | ldyImm (d8 : Byte)
  /-- LDY zero page, opcode 0xA4 (R172). -/
  | ldyZp (d8 : Byte)
  /-- LDY zero page,X, opcode 0xB4 (R172). -/
  | ldyZpx (d8 : Byte)
  /-- LDY absolute, opcode 0xAC (R172). -/
  | ldyAbs (d16 : Addr)
  /-- LDY absolute,X, opcode 0xBC (R172). -/
  | ldyAbx (d16 : Addr)
  /-- STA zero page, opcode 0x85 (R173). -/
  | staZp (d8 : Byte)
  /-- STA zero page,X, opcode 0x95 (R173). -/
  | staZpx (d8 : Byte)
  /-- STA absolute, opcode 0x8D (R173). -/
  | staAbs (d16 : Addr)
  /-- STA absolute,X, opcode 0x9D (R173). -/
  | staAbx (d16 : Addr)
  /-- STA absolute,Y, opcode 0x99 (R173). -/
  | staAby (d16 : Addr)
  /-- STA (zp,X), opcode 0x81 (R173). -/
  | staIzx (d8 : Byte)
  /-- STA (zp),Y, opcode 0x91 (R173). -/
  | staIzy (d8 : Byte)
  /-- STX zero page, opcode 0x86 (R174). -/
  | stxZp (d8 : Byte)
  /-- STX zero page,Y, opcode 0x96 (R174). -/
  | stxZpy (d8 : Byte)
  /-- STX absolute, opcode 0x8E (R174). -/
  | stxAbs (d16 : Addr)
  /-- STY zero page, opcode 0x84 (R175). -/
  | styZp (d8 : Byte)
  /-- STY zero page,X, opcode 0x94 (R175). -/
  | styZpx (d8 : Byte)
  /-- STY absolute, opcode 0x8C (R175). -/
  | styAbs (d16 : Addr)
  /-- TAX, opcode 0xAA (R176). -/
  | tax
  /-- TAY, opcode 0xA8 (R177). -/
  | tay
  /-- TXA, opcode 0x8A (R178). -/
  | txa
  /-- TYA, opcode 0x98 (R179). -/
  | tya
  /-- TSX, opcode 0xBA (R180). -/
  | tsx
  /-- TXS, opcode 0x9A (R181). -/
  | txs
  -- 42_arithmetic_logic_compare.md
  /-- ADC immediate, opcode 0x69 (R201). -/
  | adcImm (d8 : Byte)
  /-- ADC zero page, opcode 0x65 (R201). -/
  | adcZp (d8 : Byte)
  /-- ADC zero page,X, opcode 0x75 (R201). -/
  | adcZpx (d8 : Byte)
  /-- ADC absolute, opcode 0x6D (R201). -/
  | adcAbs (d16 : Addr)
  /-- ADC absolute,X, opcode 0x7D (R201). -/
  | adcAbx (d16 : Addr)
  /-- ADC absolute,Y, opcode 0x79 (R201). -/
  | adcAby (d16 : Addr)
  /-- ADC (zp,X), opcode 0x61 (R201). -/
  | adcIzx (d8 : Byte)
  /-- ADC (zp),Y, opcode 0x71 (R201). -/
  | adcIzy (d8 : Byte)
  /-- SBC immediate, opcode 0xE9 (R202). -/
  | sbcImm (d8 : Byte)
  /-- SBC zero page, opcode 0xE5 (R202). -/
  | sbcZp (d8 : Byte)
  /-- SBC zero page,X, opcode 0xF5 (R202). -/
  | sbcZpx (d8 : Byte)
  /-- SBC absolute, opcode 0xED (R202). -/
  | sbcAbs (d16 : Addr)
  /-- SBC absolute,X, opcode 0xFD (R202). -/
  | sbcAbx (d16 : Addr)
  /-- SBC absolute,Y, opcode 0xF9 (R202). -/
  | sbcAby (d16 : Addr)
  /-- SBC (zp,X), opcode 0xE1 (R202). -/
  | sbcIzx (d8 : Byte)
  /-- SBC (zp),Y, opcode 0xF1 (R202). -/
  | sbcIzy (d8 : Byte)
  /-- AND immediate, opcode 0x29 (R203). -/
  | andImm (d8 : Byte)
  /-- AND zero page, opcode 0x25 (R203). -/
  | andZp (d8 : Byte)
  /-- AND zero page,X, opcode 0x35 (R203). -/
  | andZpx (d8 : Byte)
  /-- AND absolute, opcode 0x2D (R203). -/
  | andAbs (d16 : Addr)
  /-- AND absolute,X, opcode 0x3D (R203). -/
  | andAbx (d16 : Addr)
  /-- AND absolute,Y, opcode 0x39 (R203). -/
  | andAby (d16 : Addr)
  /-- AND (zp,X), opcode 0x21 (R203). -/
  | andIzx (d8 : Byte)
  /-- AND (zp),Y, opcode 0x31 (R203). -/
  | andIzy (d8 : Byte)
  /-- ORA immediate, opcode 0x09 (R204). -/
  | oraImm (d8 : Byte)
  /-- ORA zero page, opcode 0x05 (R204). -/
  | oraZp (d8 : Byte)
  /-- ORA zero page,X, opcode 0x15 (R204). -/
  | oraZpx (d8 : Byte)
  /-- ORA absolute, opcode 0x0D (R204). -/
  | oraAbs (d16 : Addr)
  /-- ORA absolute,X, opcode 0x1D (R204). -/
  | oraAbx (d16 : Addr)
  /-- ORA absolute,Y, opcode 0x19 (R204). -/
  | oraAby (d16 : Addr)
  /-- ORA (zp,X), opcode 0x01 (R204). -/
  | oraIzx (d8 : Byte)
  /-- ORA (zp),Y, opcode 0x11 (R204). -/
  | oraIzy (d8 : Byte)
  /-- EOR immediate, opcode 0x49 (R205). -/
  | eorImm (d8 : Byte)
  /-- EOR zero page, opcode 0x45 (R205). -/
  | eorZp (d8 : Byte)
  /-- EOR zero page,X, opcode 0x55 (R205). -/
  | eorZpx (d8 : Byte)
  /-- EOR absolute, opcode 0x4D (R205). -/
  | eorAbs (d16 : Addr)
  /-- EOR absolute,X, opcode 0x5D (R205). -/
  | eorAbx (d16 : Addr)
  /-- EOR absolute,Y, opcode 0x59 (R205). -/
  | eorAby (d16 : Addr)
  /-- EOR (zp,X), opcode 0x41 (R205). -/
  | eorIzx (d8 : Byte)
  /-- EOR (zp),Y, opcode 0x51 (R205). -/
  | eorIzy (d8 : Byte)
  /-- CMP immediate, opcode 0xC9 (R206). -/
  | cmpImm (d8 : Byte)
  /-- CMP zero page, opcode 0xC5 (R206). -/
  | cmpZp (d8 : Byte)
  /-- CMP zero page,X, opcode 0xD5 (R206). -/
  | cmpZpx (d8 : Byte)
  /-- CMP absolute, opcode 0xCD (R206). -/
  | cmpAbs (d16 : Addr)
  /-- CMP absolute,X, opcode 0xDD (R206). -/
  | cmpAbx (d16 : Addr)
  /-- CMP absolute,Y, opcode 0xD9 (R206). -/
  | cmpAby (d16 : Addr)
  /-- CMP (zp,X), opcode 0xC1 (R206). -/
  | cmpIzx (d8 : Byte)
  /-- CMP (zp),Y, opcode 0xD1 (R206). -/
  | cmpIzy (d8 : Byte)
  /-- CPX immediate, opcode 0xE0 (R207). -/
  | cpxImm (d8 : Byte)
  /-- CPX zero page, opcode 0xE4 (R207). -/
  | cpxZp (d8 : Byte)
  /-- CPX absolute, opcode 0xEC (R207). -/
  | cpxAbs (d16 : Addr)
  /-- CPY immediate, opcode 0xC0 (R208). -/
  | cpyImm (d8 : Byte)
  /-- CPY zero page, opcode 0xC4 (R208). -/
  | cpyZp (d8 : Byte)
  /-- CPY absolute, opcode 0xCC (R208). -/
  | cpyAbs (d16 : Addr)
  /-- BIT zero page, opcode 0x24 (R209). -/
  | bitZp (d8 : Byte)
  /-- BIT absolute, opcode 0x2C (R209). -/
  | bitAbs (d16 : Addr)
  -- 43_shift_rotate_incdec.md
  /-- ASL accumulator, opcode 0x0A (R230). -/
  | aslAcc
  /-- ASL zero page, opcode 0x06 (R230). -/
  | aslZp (d8 : Byte)
  /-- ASL zero page,X, opcode 0x16 (R230). -/
  | aslZpx (d8 : Byte)
  /-- ASL absolute, opcode 0x0E (R230). -/
  | aslAbs (d16 : Addr)
  /-- ASL absolute,X, opcode 0x1E (R230). -/
  | aslAbx (d16 : Addr)
  /-- LSR accumulator, opcode 0x4A (R231). -/
  | lsrAcc
  /-- LSR zero page, opcode 0x46 (R231). -/
  | lsrZp (d8 : Byte)
  /-- LSR zero page,X, opcode 0x56 (R231). -/
  | lsrZpx (d8 : Byte)
  /-- LSR absolute, opcode 0x4E (R231). -/
  | lsrAbs (d16 : Addr)
  /-- LSR absolute,X, opcode 0x5E (R231). -/
  | lsrAbx (d16 : Addr)
  /-- ROL accumulator, opcode 0x2A (R232). -/
  | rolAcc
  /-- ROL zero page, opcode 0x26 (R232). -/
  | rolZp (d8 : Byte)
  /-- ROL zero page,X, opcode 0x36 (R232). -/
  | rolZpx (d8 : Byte)
  /-- ROL absolute, opcode 0x2E (R232). -/
  | rolAbs (d16 : Addr)
  /-- ROL absolute,X, opcode 0x3E (R232). -/
  | rolAbx (d16 : Addr)
  /-- ROR accumulator, opcode 0x6A (R233). -/
  | rorAcc
  /-- ROR zero page, opcode 0x66 (R233). -/
  | rorZp (d8 : Byte)
  /-- ROR zero page,X, opcode 0x76 (R233). -/
  | rorZpx (d8 : Byte)
  /-- ROR absolute, opcode 0x6E (R233). -/
  | rorAbs (d16 : Addr)
  /-- ROR absolute,X, opcode 0x7E (R233). -/
  | rorAbx (d16 : Addr)
  /-- INC zero page, opcode 0xE6 (R234). -/
  | incZp (d8 : Byte)
  /-- INC zero page,X, opcode 0xF6 (R234). -/
  | incZpx (d8 : Byte)
  /-- INC absolute, opcode 0xEE (R234). -/
  | incAbs (d16 : Addr)
  /-- INC absolute,X, opcode 0xFE (R234). -/
  | incAbx (d16 : Addr)
  /-- DEC zero page, opcode 0xC6 (R235). -/
  | decZp (d8 : Byte)
  /-- DEC zero page,X, opcode 0xD6 (R235). -/
  | decZpx (d8 : Byte)
  /-- DEC absolute, opcode 0xCE (R235). -/
  | decAbs (d16 : Addr)
  /-- DEC absolute,X, opcode 0xDE (R235). -/
  | decAbx (d16 : Addr)
  /-- INX, opcode 0xE8 (R236). -/
  | inx
  /-- INY, opcode 0xC8 (R237). -/
  | iny
  /-- DEX, opcode 0xCA (R238). -/
  | dex
  /-- DEY, opcode 0x88 (R239). -/
  | dey
  -- 44_branch_jump_subroutine.md
  /-- BPL relative, opcode 0x10 (R261). -/
  | bpl (d8 : Byte)
  /-- BMI relative, opcode 0x30 (R262). -/
  | bmi (d8 : Byte)
  /-- BVC relative, opcode 0x50 (R263). -/
  | bvc (d8 : Byte)
  /-- BVS relative, opcode 0x70 (R264). -/
  | bvs (d8 : Byte)
  /-- BCC relative, opcode 0x90 (R265). -/
  | bcc (d8 : Byte)
  /-- BCS relative, opcode 0xB0 (R266). -/
  | bcs (d8 : Byte)
  /-- BNE relative, opcode 0xD0 (R267). -/
  | bne (d8 : Byte)
  /-- BEQ relative, opcode 0xF0 (R268). -/
  | beq (d8 : Byte)
  /-- JMP absolute, opcode 0x4C (R269). -/
  | jmpAbs (d16 : Addr)
  /-- JMP (absolute), opcode 0x6C (R270). -/
  | jmpInd (d16 : Addr)
  /-- JSR absolute, opcode 0x20 (R271). -/
  | jsr (d16 : Addr)
  /-- RTS, opcode 0x60 (R272). -/
  | rts
  -- 45_stack_flag_system.md
  /-- PHA, opcode 0x48 (R290). -/
  | pha
  /-- PHP, opcode 0x08 (R291). -/
  | php
  /-- PLA, opcode 0x68 (R292). -/
  | pla
  /-- PLP, opcode 0x28 (R293). -/
  | plp
  /-- CLC, opcode 0x18 (R294). -/
  | clc
  /-- SEC, opcode 0x38 (R295). -/
  | sec
  /-- CLI, opcode 0x58 (R296). -/
  | cli
  /-- SEI, opcode 0x78 (R297). -/
  | sei
  /-- CLD, opcode 0xD8 (R298). -/
  | cld
  /-- SED, opcode 0xF8 (R299). -/
  | sed
  /-- CLV, opcode 0xB8 (R300). -/
  | clv
  /-- NOP, opcode 0xEA (R301). -/
  | nop
  /-- BRK, opcode 0x00 (R303). -/
  | brk
  /-- RTI, opcode 0x40 (R304). -/
  | rti
  deriving DecidableEq, Repr

end Sys2Proof
end

