-- ==== Sys2Proof/WellFormed.lean ====
section
/-! DEFINITION. When an instruction written with a mnemonic, a mode and an operand number is one of the
instruction set: the mnemonic has the mode (the "Operands and encodings" of R170 to R304, the forms of
30_encoding.md R102) and the operand fits its bytes (R96). A term of `Instr` is well formed by its type; the check is
on the written form. -/

namespace Sys2Proof

/-- The number of operand bytes, which the mode alone fixes (30_encoding.md R90). -/
def Mode.operandBytes : Mode → Nat
  | .imp => 0
  | .acc => 0
  | .imm => 1
  | .zp => 1
  | .zpx => 1
  | .zpy => 1
  | .abs => 2
  | .abx => 2
  | .aby => 2
  | .ind => 2
  | .izx => 1
  | .izy => 1
  | .rel => 1

/-- The instruction length in bytes, 1 to 3 (30_encoding.md R90, R101). -/
def Mode.length (m : Mode) : Nat := 1 + m.operandBytes

/-- The modes a mnemonic has (R170 to R304, "Operands and encodings"). -/
def Mnemonic.modes : Mnemonic → List Mode
  | .lda => [.imm, .zp, .zpx, .abs, .abx, .aby, .izx, .izy]
  | .ldx => [.imm, .zp, .zpy, .abs, .aby]
  | .ldy => [.imm, .zp, .zpx, .abs, .abx]
  | .sta => [.zp, .zpx, .abs, .abx, .aby, .izx, .izy]
  | .stx => [.zp, .zpy, .abs]
  | .sty => [.zp, .zpx, .abs]
  | .tax => [.imp]
  | .tay => [.imp]
  | .txa => [.imp]
  | .tya => [.imp]
  | .tsx => [.imp]
  | .txs => [.imp]
  | .adc => [.imm, .zp, .zpx, .abs, .abx, .aby, .izx, .izy]
  | .sbc => [.imm, .zp, .zpx, .abs, .abx, .aby, .izx, .izy]
  | .and => [.imm, .zp, .zpx, .abs, .abx, .aby, .izx, .izy]
  | .ora => [.imm, .zp, .zpx, .abs, .abx, .aby, .izx, .izy]
  | .eor => [.imm, .zp, .zpx, .abs, .abx, .aby, .izx, .izy]
  | .cmp => [.imm, .zp, .zpx, .abs, .abx, .aby, .izx, .izy]
  | .cpx => [.imm, .zp, .abs]
  | .cpy => [.imm, .zp, .abs]
  | .bit => [.zp, .abs]
  | .asl => [.acc, .zp, .zpx, .abs, .abx]
  | .lsr => [.acc, .zp, .zpx, .abs, .abx]
  | .rol => [.acc, .zp, .zpx, .abs, .abx]
  | .ror => [.acc, .zp, .zpx, .abs, .abx]
  | .inc => [.zp, .zpx, .abs, .abx]
  | .dec => [.zp, .zpx, .abs, .abx]
  | .inx => [.imp]
  | .iny => [.imp]
  | .dex => [.imp]
  | .dey => [.imp]
  | .bpl => [.rel]
  | .bmi => [.rel]
  | .bvc => [.rel]
  | .bvs => [.rel]
  | .bcc => [.rel]
  | .bcs => [.rel]
  | .bne => [.rel]
  | .beq => [.rel]
  | .jmp => [.abs, .ind]
  | .jsr => [.abs]
  | .rts => [.imp]
  | .pha => [.imp]
  | .php => [.imp]
  | .pla => [.imp]
  | .plp => [.imp]
  | .clc => [.imp]
  | .sec => [.imp]
  | .cli => [.imp]
  | .sei => [.imp]
  | .cld => [.imp]
  | .sed => [.imp]
  | .clv => [.imp]
  | .nop => [.imp]
  | .brk => [.imp]
  | .rti => [.imp]

/-- An instruction as it is written: a mnemonic, a mode, an operand number (0 where the mode has none). -/
structure Written where
  mnemonic : Mnemonic
  mode : Mode
  operand : Nat
  deriving DecidableEq, Repr

/-- The mnemonic has the mode. -/
def Written.modeOk (w : Written) : Bool := w.mnemonic.modes.contains w.mode

/-- The operand fits the mode's operand bytes. -/
def Written.operandOk (w : Written) : Bool := decide (w.operand < 2 ^ (8 * w.mode.operandBytes))

/-- The written form is an instruction of the set. -/
def Written.wellFormed (w : Written) : Bool := w.modeOk && w.operandOk

end Sys2Proof
end

