-- ==== Sys2Proof/Decode.lean ====
section
/-! DEFINITION. The opcode table, the decoder (total on any bytes, rejecting by name) and the encoder
(30_encoding.md R90 to R101). The opcode byte is looked up whole, it has no sub-fields (R91); 151 entries are
legal, the other 105 are rejected (R98, R99). -/

namespace Sys2Proof

open Sys2Proof.Machine

/-- What an opcode byte selects: an instruction that waits for its operand bytes (30_encoding.md R90). `call` is
JSR, whose second operand byte is fetched by its last cycle (40_addressing_and_cycles.md R141; log 8). -/
inductive Form where
  | one (i : Instr)
  | two (f : Byte → Instr)
  | three (f : Addr → Instr)
  | call (f : Addr → Instr)

/-- The opcode table (30_encoding.md R98): the legal entries, and `none` for the 105 bytes of R99. -/
def opcodeForm (b : Byte) : Option Form :=
  match b.toNat with
  | 0x00 => some (.one .brk)
  | 0x01 => some (.two .oraIzx)
  | 0x05 => some (.two .oraZp)
  | 0x06 => some (.two .aslZp)
  | 0x08 => some (.one .php)
  | 0x09 => some (.two .oraImm)
  | 0x0A => some (.one .aslAcc)
  | 0x0D => some (.three .oraAbs)
  | 0x0E => some (.three .aslAbs)
  | 0x10 => some (.two .bpl)
  | 0x11 => some (.two .oraIzy)
  | 0x15 => some (.two .oraZpx)
  | 0x16 => some (.two .aslZpx)
  | 0x18 => some (.one .clc)
  | 0x19 => some (.three .oraAby)
  | 0x1D => some (.three .oraAbx)
  | 0x1E => some (.three .aslAbx)
  | 0x20 => some (.call .jsr)
  | 0x21 => some (.two .andIzx)
  | 0x24 => some (.two .bitZp)
  | 0x25 => some (.two .andZp)
  | 0x26 => some (.two .rolZp)
  | 0x28 => some (.one .plp)
  | 0x29 => some (.two .andImm)
  | 0x2A => some (.one .rolAcc)
  | 0x2C => some (.three .bitAbs)
  | 0x2D => some (.three .andAbs)
  | 0x2E => some (.three .rolAbs)
  | 0x30 => some (.two .bmi)
  | 0x31 => some (.two .andIzy)
  | 0x35 => some (.two .andZpx)
  | 0x36 => some (.two .rolZpx)
  | 0x38 => some (.one .sec)
  | 0x39 => some (.three .andAby)
  | 0x3D => some (.three .andAbx)
  | 0x3E => some (.three .rolAbx)
  | 0x40 => some (.one .rti)
  | 0x41 => some (.two .eorIzx)
  | 0x45 => some (.two .eorZp)
  | 0x46 => some (.two .lsrZp)
  | 0x48 => some (.one .pha)
  | 0x49 => some (.two .eorImm)
  | 0x4A => some (.one .lsrAcc)
  | 0x4C => some (.three .jmpAbs)
  | 0x4D => some (.three .eorAbs)
  | 0x4E => some (.three .lsrAbs)
  | 0x50 => some (.two .bvc)
  | 0x51 => some (.two .eorIzy)
  | 0x55 => some (.two .eorZpx)
  | 0x56 => some (.two .lsrZpx)
  | 0x58 => some (.one .cli)
  | 0x59 => some (.three .eorAby)
  | 0x5D => some (.three .eorAbx)
  | 0x5E => some (.three .lsrAbx)
  | 0x60 => some (.one .rts)
  | 0x61 => some (.two .adcIzx)
  | 0x65 => some (.two .adcZp)
  | 0x66 => some (.two .rorZp)
  | 0x68 => some (.one .pla)
  | 0x69 => some (.two .adcImm)
  | 0x6A => some (.one .rorAcc)
  | 0x6C => some (.three .jmpInd)
  | 0x6D => some (.three .adcAbs)
  | 0x6E => some (.three .rorAbs)
  | 0x70 => some (.two .bvs)
  | 0x71 => some (.two .adcIzy)
  | 0x75 => some (.two .adcZpx)
  | 0x76 => some (.two .rorZpx)
  | 0x78 => some (.one .sei)
  | 0x79 => some (.three .adcAby)
  | 0x7D => some (.three .adcAbx)
  | 0x7E => some (.three .rorAbx)
  | 0x81 => some (.two .staIzx)
  | 0x84 => some (.two .styZp)
  | 0x85 => some (.two .staZp)
  | 0x86 => some (.two .stxZp)
  | 0x88 => some (.one .dey)
  | 0x8A => some (.one .txa)
  | 0x8C => some (.three .styAbs)
  | 0x8D => some (.three .staAbs)
  | 0x8E => some (.three .stxAbs)
  | 0x90 => some (.two .bcc)
  | 0x91 => some (.two .staIzy)
  | 0x94 => some (.two .styZpx)
  | 0x95 => some (.two .staZpx)
  | 0x96 => some (.two .stxZpy)
  | 0x98 => some (.one .tya)
  | 0x99 => some (.three .staAby)
  | 0x9A => some (.one .txs)
  | 0x9D => some (.three .staAbx)
  | 0xA0 => some (.two .ldyImm)
  | 0xA1 => some (.two .ldaIzx)
  | 0xA2 => some (.two .ldxImm)
  | 0xA4 => some (.two .ldyZp)
  | 0xA5 => some (.two .ldaZp)
  | 0xA6 => some (.two .ldxZp)
  | 0xA8 => some (.one .tay)
  | 0xA9 => some (.two .ldaImm)
  | 0xAA => some (.one .tax)
  | 0xAC => some (.three .ldyAbs)
  | 0xAD => some (.three .ldaAbs)
  | 0xAE => some (.three .ldxAbs)
  | 0xB0 => some (.two .bcs)
  | 0xB1 => some (.two .ldaIzy)
  | 0xB4 => some (.two .ldyZpx)
  | 0xB5 => some (.two .ldaZpx)
  | 0xB6 => some (.two .ldxZpy)
  | 0xB8 => some (.one .clv)
  | 0xB9 => some (.three .ldaAby)
  | 0xBA => some (.one .tsx)
  | 0xBC => some (.three .ldyAbx)
  | 0xBD => some (.three .ldaAbx)
  | 0xBE => some (.three .ldxAby)
  | 0xC0 => some (.two .cpyImm)
  | 0xC1 => some (.two .cmpIzx)
  | 0xC4 => some (.two .cpyZp)
  | 0xC5 => some (.two .cmpZp)
  | 0xC6 => some (.two .decZp)
  | 0xC8 => some (.one .iny)
  | 0xC9 => some (.two .cmpImm)
  | 0xCA => some (.one .dex)
  | 0xCC => some (.three .cpyAbs)
  | 0xCD => some (.three .cmpAbs)
  | 0xCE => some (.three .decAbs)
  | 0xD0 => some (.two .bne)
  | 0xD1 => some (.two .cmpIzy)
  | 0xD5 => some (.two .cmpZpx)
  | 0xD6 => some (.two .decZpx)
  | 0xD8 => some (.one .cld)
  | 0xD9 => some (.three .cmpAby)
  | 0xDD => some (.three .cmpAbx)
  | 0xDE => some (.three .decAbx)
  | 0xE0 => some (.two .cpxImm)
  | 0xE1 => some (.two .sbcIzx)
  | 0xE4 => some (.two .cpxZp)
  | 0xE5 => some (.two .sbcZp)
  | 0xE6 => some (.two .incZp)
  | 0xE8 => some (.one .inx)
  | 0xE9 => some (.two .sbcImm)
  | 0xEA => some (.one .nop)
  | 0xEC => some (.three .cpxAbs)
  | 0xED => some (.three .sbcAbs)
  | 0xEE => some (.three .incAbs)
  | 0xF0 => some (.two .beq)
  | 0xF1 => some (.two .sbcIzy)
  | 0xF5 => some (.two .sbcZpx)
  | 0xF6 => some (.two .incZpx)
  | 0xF8 => some (.one .sed)
  | 0xF9 => some (.three .sbcAby)
  | 0xFD => some (.three .sbcAbx)
  | 0xFE => some (.three .incAbx)
  | _ => none

/-- Why bytes are no instruction. -/
inductive DecodeError where
  /-- The opcode byte has no table entry (30_encoding.md R99). -/
  | illegalOpcode (b : Byte)
  /-- The bytes end inside the instruction; `missing` operand bytes are not there. -/
  | truncated (missing : Nat)
  deriving DecidableEq, Repr

/-- One instruction from the front of a byte stream, with the rest of the stream (30_encoding.md R101). -/
def decode : List Byte → Except DecodeError (Instr × List Byte)
  | [] => .error (.truncated 1)
  | b :: rest =>
    match opcodeForm b with
    | none => .error (.illegalOpcode b)
    | some (.one i) => .ok (i, rest)
    | some (.two f) =>
      match rest with
      | d :: rest => .ok (f d, rest)
      | [] => .error (.truncated 1)
    | some (.three f) | some (.call f) =>
      match rest with
      | l :: h :: rest => .ok (f (word h l), rest)
      | [_] => .error (.truncated 1)
      | [] => .error (.truncated 2)

/-- The bytes of a number, byte `k` in bits 8k+7 to 8k. -/
def bytesOfNat : Nat → Nat → List Byte
  | 0, _ => []
  | n + 1, w => BitVec.ofNat 8 w :: bytesOfNat n (w / 256)

/-- The instruction the decoder reads from the bits `w` of an opcode-table row of `nbits` bits (bit 0 the
least significant bit of the first byte); every bit above `nbits` is 0. -/
def decodeTableWord (nbits w : Nat) : Option Instr :=
  match decode (bytesOfNat 3 (w % 2 ^ nbits)) with
  | .ok (i, _) => some i
  | .error _ => none

/-! ## Encoding -/

/-- The opcode byte of an instruction (30_encoding.md R98). -/
def Instr.opcode : Instr → Byte
  | .ldaImm _ => 0xA9
  | .ldaZp _ => 0xA5
  | .ldaZpx _ => 0xB5
  | .ldaAbs _ => 0xAD
  | .ldaAbx _ => 0xBD
  | .ldaAby _ => 0xB9
  | .ldaIzx _ => 0xA1
  | .ldaIzy _ => 0xB1
  | .ldxImm _ => 0xA2
  | .ldxZp _ => 0xA6
  | .ldxZpy _ => 0xB6
  | .ldxAbs _ => 0xAE
  | .ldxAby _ => 0xBE
  | .ldyImm _ => 0xA0
  | .ldyZp _ => 0xA4
  | .ldyZpx _ => 0xB4
  | .ldyAbs _ => 0xAC
  | .ldyAbx _ => 0xBC
  | .staZp _ => 0x85
  | .staZpx _ => 0x95
  | .staAbs _ => 0x8D
  | .staAbx _ => 0x9D
  | .staAby _ => 0x99
  | .staIzx _ => 0x81
  | .staIzy _ => 0x91
  | .stxZp _ => 0x86
  | .stxZpy _ => 0x96
  | .stxAbs _ => 0x8E
  | .styZp _ => 0x84
  | .styZpx _ => 0x94
  | .styAbs _ => 0x8C
  | .tax => 0xAA
  | .tay => 0xA8
  | .txa => 0x8A
  | .tya => 0x98
  | .tsx => 0xBA
  | .txs => 0x9A
  | .adcImm _ => 0x69
  | .adcZp _ => 0x65
  | .adcZpx _ => 0x75
  | .adcAbs _ => 0x6D
  | .adcAbx _ => 0x7D
  | .adcAby _ => 0x79
  | .adcIzx _ => 0x61
  | .adcIzy _ => 0x71
  | .sbcImm _ => 0xE9
  | .sbcZp _ => 0xE5
  | .sbcZpx _ => 0xF5
  | .sbcAbs _ => 0xED
  | .sbcAbx _ => 0xFD
  | .sbcAby _ => 0xF9
  | .sbcIzx _ => 0xE1
  | .sbcIzy _ => 0xF1
  | .andImm _ => 0x29
  | .andZp _ => 0x25
  | .andZpx _ => 0x35
  | .andAbs _ => 0x2D
  | .andAbx _ => 0x3D
  | .andAby _ => 0x39
  | .andIzx _ => 0x21
  | .andIzy _ => 0x31
  | .oraImm _ => 0x09
  | .oraZp _ => 0x05
  | .oraZpx _ => 0x15
  | .oraAbs _ => 0x0D
  | .oraAbx _ => 0x1D
  | .oraAby _ => 0x19
  | .oraIzx _ => 0x01
  | .oraIzy _ => 0x11
  | .eorImm _ => 0x49
  | .eorZp _ => 0x45
  | .eorZpx _ => 0x55
  | .eorAbs _ => 0x4D
  | .eorAbx _ => 0x5D
  | .eorAby _ => 0x59
  | .eorIzx _ => 0x41
  | .eorIzy _ => 0x51
  | .cmpImm _ => 0xC9
  | .cmpZp _ => 0xC5
  | .cmpZpx _ => 0xD5
  | .cmpAbs _ => 0xCD
  | .cmpAbx _ => 0xDD
  | .cmpAby _ => 0xD9
  | .cmpIzx _ => 0xC1
  | .cmpIzy _ => 0xD1
  | .cpxImm _ => 0xE0
  | .cpxZp _ => 0xE4
  | .cpxAbs _ => 0xEC
  | .cpyImm _ => 0xC0
  | .cpyZp _ => 0xC4
  | .cpyAbs _ => 0xCC
  | .bitZp _ => 0x24
  | .bitAbs _ => 0x2C
  | .aslAcc => 0x0A
  | .aslZp _ => 0x06
  | .aslZpx _ => 0x16
  | .aslAbs _ => 0x0E
  | .aslAbx _ => 0x1E
  | .lsrAcc => 0x4A
  | .lsrZp _ => 0x46
  | .lsrZpx _ => 0x56
  | .lsrAbs _ => 0x4E
  | .lsrAbx _ => 0x5E
  | .rolAcc => 0x2A
  | .rolZp _ => 0x26
  | .rolZpx _ => 0x36
  | .rolAbs _ => 0x2E
  | .rolAbx _ => 0x3E
  | .rorAcc => 0x6A
  | .rorZp _ => 0x66
  | .rorZpx _ => 0x76
  | .rorAbs _ => 0x6E
  | .rorAbx _ => 0x7E
  | .incZp _ => 0xE6
  | .incZpx _ => 0xF6
  | .incAbs _ => 0xEE
  | .incAbx _ => 0xFE
  | .decZp _ => 0xC6
  | .decZpx _ => 0xD6
  | .decAbs _ => 0xCE
  | .decAbx _ => 0xDE
  | .inx => 0xE8
  | .iny => 0xC8
  | .dex => 0xCA
  | .dey => 0x88
  | .bpl _ => 0x10
  | .bmi _ => 0x30
  | .bvc _ => 0x50
  | .bvs _ => 0x70
  | .bcc _ => 0x90
  | .bcs _ => 0xB0
  | .bne _ => 0xD0
  | .beq _ => 0xF0
  | .jmpAbs _ => 0x4C
  | .jmpInd _ => 0x6C
  | .jsr _ => 0x20
  | .rts => 0x60
  | .pha => 0x48
  | .php => 0x08
  | .pla => 0x68
  | .plp => 0x28
  | .clc => 0x18
  | .sec => 0x38
  | .cli => 0x58
  | .sei => 0x78
  | .cld => 0xD8
  | .sed => 0xF8
  | .clv => 0xB8
  | .nop => 0xEA
  | .brk => 0x00
  | .rti => 0x40

/-- The operand bytes of an instruction, low byte first (30_encoding.md R90; 20_memory.md R61). -/
def Instr.operandBytes : Instr → List Byte
  | .ldaImm d8 => [d8]
  | .ldaZp d8 => [d8]
  | .ldaZpx d8 => [d8]
  | .ldaAbs d16 => [lo d16, hi d16]
  | .ldaAbx d16 => [lo d16, hi d16]
  | .ldaAby d16 => [lo d16, hi d16]
  | .ldaIzx d8 => [d8]
  | .ldaIzy d8 => [d8]
  | .ldxImm d8 => [d8]
  | .ldxZp d8 => [d8]
  | .ldxZpy d8 => [d8]
  | .ldxAbs d16 => [lo d16, hi d16]
  | .ldxAby d16 => [lo d16, hi d16]
  | .ldyImm d8 => [d8]
  | .ldyZp d8 => [d8]
  | .ldyZpx d8 => [d8]
  | .ldyAbs d16 => [lo d16, hi d16]
  | .ldyAbx d16 => [lo d16, hi d16]
  | .staZp d8 => [d8]
  | .staZpx d8 => [d8]
  | .staAbs d16 => [lo d16, hi d16]
  | .staAbx d16 => [lo d16, hi d16]
  | .staAby d16 => [lo d16, hi d16]
  | .staIzx d8 => [d8]
  | .staIzy d8 => [d8]
  | .stxZp d8 => [d8]
  | .stxZpy d8 => [d8]
  | .stxAbs d16 => [lo d16, hi d16]
  | .styZp d8 => [d8]
  | .styZpx d8 => [d8]
  | .styAbs d16 => [lo d16, hi d16]
  | .tax => []
  | .tay => []
  | .txa => []
  | .tya => []
  | .tsx => []
  | .txs => []
  | .adcImm d8 => [d8]
  | .adcZp d8 => [d8]
  | .adcZpx d8 => [d8]
  | .adcAbs d16 => [lo d16, hi d16]
  | .adcAbx d16 => [lo d16, hi d16]
  | .adcAby d16 => [lo d16, hi d16]
  | .adcIzx d8 => [d8]
  | .adcIzy d8 => [d8]
  | .sbcImm d8 => [d8]
  | .sbcZp d8 => [d8]
  | .sbcZpx d8 => [d8]
  | .sbcAbs d16 => [lo d16, hi d16]
  | .sbcAbx d16 => [lo d16, hi d16]
  | .sbcAby d16 => [lo d16, hi d16]
  | .sbcIzx d8 => [d8]
  | .sbcIzy d8 => [d8]
  | .andImm d8 => [d8]
  | .andZp d8 => [d8]
  | .andZpx d8 => [d8]
  | .andAbs d16 => [lo d16, hi d16]
  | .andAbx d16 => [lo d16, hi d16]
  | .andAby d16 => [lo d16, hi d16]
  | .andIzx d8 => [d8]
  | .andIzy d8 => [d8]
  | .oraImm d8 => [d8]
  | .oraZp d8 => [d8]
  | .oraZpx d8 => [d8]
  | .oraAbs d16 => [lo d16, hi d16]
  | .oraAbx d16 => [lo d16, hi d16]
  | .oraAby d16 => [lo d16, hi d16]
  | .oraIzx d8 => [d8]
  | .oraIzy d8 => [d8]
  | .eorImm d8 => [d8]
  | .eorZp d8 => [d8]
  | .eorZpx d8 => [d8]
  | .eorAbs d16 => [lo d16, hi d16]
  | .eorAbx d16 => [lo d16, hi d16]
  | .eorAby d16 => [lo d16, hi d16]
  | .eorIzx d8 => [d8]
  | .eorIzy d8 => [d8]
  | .cmpImm d8 => [d8]
  | .cmpZp d8 => [d8]
  | .cmpZpx d8 => [d8]
  | .cmpAbs d16 => [lo d16, hi d16]
  | .cmpAbx d16 => [lo d16, hi d16]
  | .cmpAby d16 => [lo d16, hi d16]
  | .cmpIzx d8 => [d8]
  | .cmpIzy d8 => [d8]
  | .cpxImm d8 => [d8]
  | .cpxZp d8 => [d8]
  | .cpxAbs d16 => [lo d16, hi d16]
  | .cpyImm d8 => [d8]
  | .cpyZp d8 => [d8]
  | .cpyAbs d16 => [lo d16, hi d16]
  | .bitZp d8 => [d8]
  | .bitAbs d16 => [lo d16, hi d16]
  | .aslAcc => []
  | .aslZp d8 => [d8]
  | .aslZpx d8 => [d8]
  | .aslAbs d16 => [lo d16, hi d16]
  | .aslAbx d16 => [lo d16, hi d16]
  | .lsrAcc => []
  | .lsrZp d8 => [d8]
  | .lsrZpx d8 => [d8]
  | .lsrAbs d16 => [lo d16, hi d16]
  | .lsrAbx d16 => [lo d16, hi d16]
  | .rolAcc => []
  | .rolZp d8 => [d8]
  | .rolZpx d8 => [d8]
  | .rolAbs d16 => [lo d16, hi d16]
  | .rolAbx d16 => [lo d16, hi d16]
  | .rorAcc => []
  | .rorZp d8 => [d8]
  | .rorZpx d8 => [d8]
  | .rorAbs d16 => [lo d16, hi d16]
  | .rorAbx d16 => [lo d16, hi d16]
  | .incZp d8 => [d8]
  | .incZpx d8 => [d8]
  | .incAbs d16 => [lo d16, hi d16]
  | .incAbx d16 => [lo d16, hi d16]
  | .decZp d8 => [d8]
  | .decZpx d8 => [d8]
  | .decAbs d16 => [lo d16, hi d16]
  | .decAbx d16 => [lo d16, hi d16]
  | .inx => []
  | .iny => []
  | .dex => []
  | .dey => []
  | .bpl d8 => [d8]
  | .bmi d8 => [d8]
  | .bvc d8 => [d8]
  | .bvs d8 => [d8]
  | .bcc d8 => [d8]
  | .bcs d8 => [d8]
  | .bne d8 => [d8]
  | .beq d8 => [d8]
  | .jmpAbs d16 => [lo d16, hi d16]
  | .jmpInd d16 => [lo d16, hi d16]
  | .jsr d16 => [lo d16, hi d16]
  | .rts => []
  | .pha => []
  | .php => []
  | .pla => []
  | .plp => []
  | .clc => []
  | .sec => []
  | .cli => []
  | .sei => []
  | .cld => []
  | .sed => []
  | .clv => []
  | .nop => []
  | .brk => []
  | .rti => []

/-- The bytes of an instruction in address order. -/
def encode (i : Instr) : List Byte := i.opcode :: i.operandBytes

/-! ## The descriptor's fields (10_state.md R43; 92_eei_decisions.md D31) -/

/-- The mnemonic of an instruction. -/
def Instr.mnemonic : Instr → Mnemonic
  | .ldaImm _ => .lda
  | .ldaZp _ => .lda
  | .ldaZpx _ => .lda
  | .ldaAbs _ => .lda
  | .ldaAbx _ => .lda
  | .ldaAby _ => .lda
  | .ldaIzx _ => .lda
  | .ldaIzy _ => .lda
  | .ldxImm _ => .ldx
  | .ldxZp _ => .ldx
  | .ldxZpy _ => .ldx
  | .ldxAbs _ => .ldx
  | .ldxAby _ => .ldx
  | .ldyImm _ => .ldy
  | .ldyZp _ => .ldy
  | .ldyZpx _ => .ldy
  | .ldyAbs _ => .ldy
  | .ldyAbx _ => .ldy
  | .staZp _ => .sta
  | .staZpx _ => .sta
  | .staAbs _ => .sta
  | .staAbx _ => .sta
  | .staAby _ => .sta
  | .staIzx _ => .sta
  | .staIzy _ => .sta
  | .stxZp _ => .stx
  | .stxZpy _ => .stx
  | .stxAbs _ => .stx
  | .styZp _ => .sty
  | .styZpx _ => .sty
  | .styAbs _ => .sty
  | .tax => .tax
  | .tay => .tay
  | .txa => .txa
  | .tya => .tya
  | .tsx => .tsx
  | .txs => .txs
  | .adcImm _ => .adc
  | .adcZp _ => .adc
  | .adcZpx _ => .adc
  | .adcAbs _ => .adc
  | .adcAbx _ => .adc
  | .adcAby _ => .adc
  | .adcIzx _ => .adc
  | .adcIzy _ => .adc
  | .sbcImm _ => .sbc
  | .sbcZp _ => .sbc
  | .sbcZpx _ => .sbc
  | .sbcAbs _ => .sbc
  | .sbcAbx _ => .sbc
  | .sbcAby _ => .sbc
  | .sbcIzx _ => .sbc
  | .sbcIzy _ => .sbc
  | .andImm _ => .and
  | .andZp _ => .and
  | .andZpx _ => .and
  | .andAbs _ => .and
  | .andAbx _ => .and
  | .andAby _ => .and
  | .andIzx _ => .and
  | .andIzy _ => .and
  | .oraImm _ => .ora
  | .oraZp _ => .ora
  | .oraZpx _ => .ora
  | .oraAbs _ => .ora
  | .oraAbx _ => .ora
  | .oraAby _ => .ora
  | .oraIzx _ => .ora
  | .oraIzy _ => .ora
  | .eorImm _ => .eor
  | .eorZp _ => .eor
  | .eorZpx _ => .eor
  | .eorAbs _ => .eor
  | .eorAbx _ => .eor
  | .eorAby _ => .eor
  | .eorIzx _ => .eor
  | .eorIzy _ => .eor
  | .cmpImm _ => .cmp
  | .cmpZp _ => .cmp
  | .cmpZpx _ => .cmp
  | .cmpAbs _ => .cmp
  | .cmpAbx _ => .cmp
  | .cmpAby _ => .cmp
  | .cmpIzx _ => .cmp
  | .cmpIzy _ => .cmp
  | .cpxImm _ => .cpx
  | .cpxZp _ => .cpx
  | .cpxAbs _ => .cpx
  | .cpyImm _ => .cpy
  | .cpyZp _ => .cpy
  | .cpyAbs _ => .cpy
  | .bitZp _ => .bit
  | .bitAbs _ => .bit
  | .aslAcc => .asl
  | .aslZp _ => .asl
  | .aslZpx _ => .asl
  | .aslAbs _ => .asl
  | .aslAbx _ => .asl
  | .lsrAcc => .lsr
  | .lsrZp _ => .lsr
  | .lsrZpx _ => .lsr
  | .lsrAbs _ => .lsr
  | .lsrAbx _ => .lsr
  | .rolAcc => .rol
  | .rolZp _ => .rol
  | .rolZpx _ => .rol
  | .rolAbs _ => .rol
  | .rolAbx _ => .rol
  | .rorAcc => .ror
  | .rorZp _ => .ror
  | .rorZpx _ => .ror
  | .rorAbs _ => .ror
  | .rorAbx _ => .ror
  | .incZp _ => .inc
  | .incZpx _ => .inc
  | .incAbs _ => .inc
  | .incAbx _ => .inc
  | .decZp _ => .dec
  | .decZpx _ => .dec
  | .decAbs _ => .dec
  | .decAbx _ => .dec
  | .inx => .inx
  | .iny => .iny
  | .dex => .dex
  | .dey => .dey
  | .bpl _ => .bpl
  | .bmi _ => .bmi
  | .bvc _ => .bvc
  | .bvs _ => .bvs
  | .bcc _ => .bcc
  | .bcs _ => .bcs
  | .bne _ => .bne
  | .beq _ => .beq
  | .jmpAbs _ => .jmp
  | .jmpInd _ => .jmp
  | .jsr _ => .jsr
  | .rts => .rts
  | .pha => .pha
  | .php => .php
  | .pla => .pla
  | .plp => .plp
  | .clc => .clc
  | .sec => .sec
  | .cli => .cli
  | .sei => .sei
  | .cld => .cld
  | .sed => .sed
  | .clv => .clv
  | .nop => .nop
  | .brk => .brk
  | .rti => .rti

/-- The addressing mode of an instruction. -/
def Instr.mode : Instr → Mode
  | .ldaImm _ => .imm
  | .ldaZp _ => .zp
  | .ldaZpx _ => .zpx
  | .ldaAbs _ => .abs
  | .ldaAbx _ => .abx
  | .ldaAby _ => .aby
  | .ldaIzx _ => .izx
  | .ldaIzy _ => .izy
  | .ldxImm _ => .imm
  | .ldxZp _ => .zp
  | .ldxZpy _ => .zpy
  | .ldxAbs _ => .abs
  | .ldxAby _ => .aby
  | .ldyImm _ => .imm
  | .ldyZp _ => .zp
  | .ldyZpx _ => .zpx
  | .ldyAbs _ => .abs
  | .ldyAbx _ => .abx
  | .staZp _ => .zp
  | .staZpx _ => .zpx
  | .staAbs _ => .abs
  | .staAbx _ => .abx
  | .staAby _ => .aby
  | .staIzx _ => .izx
  | .staIzy _ => .izy
  | .stxZp _ => .zp
  | .stxZpy _ => .zpy
  | .stxAbs _ => .abs
  | .styZp _ => .zp
  | .styZpx _ => .zpx
  | .styAbs _ => .abs
  | .tax => .imp
  | .tay => .imp
  | .txa => .imp
  | .tya => .imp
  | .tsx => .imp
  | .txs => .imp
  | .adcImm _ => .imm
  | .adcZp _ => .zp
  | .adcZpx _ => .zpx
  | .adcAbs _ => .abs
  | .adcAbx _ => .abx
  | .adcAby _ => .aby
  | .adcIzx _ => .izx
  | .adcIzy _ => .izy
  | .sbcImm _ => .imm
  | .sbcZp _ => .zp
  | .sbcZpx _ => .zpx
  | .sbcAbs _ => .abs
  | .sbcAbx _ => .abx
  | .sbcAby _ => .aby
  | .sbcIzx _ => .izx
  | .sbcIzy _ => .izy
  | .andImm _ => .imm
  | .andZp _ => .zp
  | .andZpx _ => .zpx
  | .andAbs _ => .abs
  | .andAbx _ => .abx
  | .andAby _ => .aby
  | .andIzx _ => .izx
  | .andIzy _ => .izy
  | .oraImm _ => .imm
  | .oraZp _ => .zp
  | .oraZpx _ => .zpx
  | .oraAbs _ => .abs
  | .oraAbx _ => .abx
  | .oraAby _ => .aby
  | .oraIzx _ => .izx
  | .oraIzy _ => .izy
  | .eorImm _ => .imm
  | .eorZp _ => .zp
  | .eorZpx _ => .zpx
  | .eorAbs _ => .abs
  | .eorAbx _ => .abx
  | .eorAby _ => .aby
  | .eorIzx _ => .izx
  | .eorIzy _ => .izy
  | .cmpImm _ => .imm
  | .cmpZp _ => .zp
  | .cmpZpx _ => .zpx
  | .cmpAbs _ => .abs
  | .cmpAbx _ => .abx
  | .cmpAby _ => .aby
  | .cmpIzx _ => .izx
  | .cmpIzy _ => .izy
  | .cpxImm _ => .imm
  | .cpxZp _ => .zp
  | .cpxAbs _ => .abs
  | .cpyImm _ => .imm
  | .cpyZp _ => .zp
  | .cpyAbs _ => .abs
  | .bitZp _ => .zp
  | .bitAbs _ => .abs
  | .aslAcc => .acc
  | .aslZp _ => .zp
  | .aslZpx _ => .zpx
  | .aslAbs _ => .abs
  | .aslAbx _ => .abx
  | .lsrAcc => .acc
  | .lsrZp _ => .zp
  | .lsrZpx _ => .zpx
  | .lsrAbs _ => .abs
  | .lsrAbx _ => .abx
  | .rolAcc => .acc
  | .rolZp _ => .zp
  | .rolZpx _ => .zpx
  | .rolAbs _ => .abs
  | .rolAbx _ => .abx
  | .rorAcc => .acc
  | .rorZp _ => .zp
  | .rorZpx _ => .zpx
  | .rorAbs _ => .abs
  | .rorAbx _ => .abx
  | .incZp _ => .zp
  | .incZpx _ => .zpx
  | .incAbs _ => .abs
  | .incAbx _ => .abx
  | .decZp _ => .zp
  | .decZpx _ => .zpx
  | .decAbs _ => .abs
  | .decAbx _ => .abx
  | .inx => .imp
  | .iny => .imp
  | .dex => .imp
  | .dey => .imp
  | .bpl _ => .rel
  | .bmi _ => .rel
  | .bvc _ => .rel
  | .bvs _ => .rel
  | .bcc _ => .rel
  | .bcs _ => .rel
  | .bne _ => .rel
  | .beq _ => .rel
  | .jmpAbs _ => .abs
  | .jmpInd _ => .ind
  | .jsr _ => .abs
  | .rts => .imp
  | .pha => .imp
  | .php => .imp
  | .pla => .imp
  | .plp => .imp
  | .clc => .imp
  | .sec => .imp
  | .cli => .imp
  | .sei => .imp
  | .cld => .imp
  | .sed => .imp
  | .clv => .imp
  | .nop => .imp
  | .brk => .imp
  | .rti => .imp

/-- The operand of an instruction as a number, 0 where it has none. -/
def Instr.operand (i : Instr) : Nat :=
  match i.operandBytes with
  | [] => 0
  | [d] => d.toNat
  | l :: h :: _ => (word h l).toNat

/-- The written form of an instruction. -/
def Instr.written (i : Instr) : Written := ⟨i.mnemonic, i.mode, i.operand⟩

/-- The well-formedness check of an instruction: that of its written form. -/
def Instr.wellFormed (i : Instr) : Bool := i.written.wellFormed

/-- The instruction of a form with operand bytes zero: it names the table entry's mnemonic and mode. -/
def Form.entry : Form → Instr
  | .one i => i
  | .two f => f 0
  | .three f => f 0
  | .call f => f 0

/-- The (mnemonic, addressing mode) of a table entry, `none` for an illegal byte (30_encoding.md R93). -/
def optab (b : Byte) : Option (Mnemonic × Mode) :=
  (opcodeForm b).map (fun f => (f.entry.mnemonic, f.entry.mode))

end Sys2Proof
end

