-- ==== Sys2Proof/Machine/Fetch.lean ====
section
/-! DEFINITION. Instruction fetch at PC (30_encoding.md R90 to R92, R101; 40_addressing_and_cycles.md R122; 60_exceptions.md R331,
R332): the opcode byte, its table entry, the operand bytes; and the placing of an instruction where the
next fetch reads. -/

namespace Sys2Proof

/-- How many bytes of an instruction are fetched before its meaning runs (log 8, log 24). -/
def Instr.fetchedBytes : Instr → Nat
  | .jsr _ => 2
  | i => i.mode.length

end Sys2Proof

namespace Sys2Proof.Machine

/-- What a fetch at PC gives. -/
inductive Fetched where
  | illegal (b : Byte) (stopped : State)
  | ready (i : Instr) (s : State)
  deriving DecidableEq, Repr

/-- The state after `n` instruction bytes have been fetched, one cycle each. -/
def State.afterFetch : Nat → State → State
  | 0, s => s
  | n + 1, s => State.afterFetch n s.fetch

/-- The byte fetch number `n` (from 0) gets. -/
def State.fetchedByte (n : Nat) (s : State) : Byte := (s.afterFetch n).fetchValue

/-- Fetching an instruction. JSR fetches two of its three bytes here: the third is read by its last cycle,
so the high byte of its operand is shown as the bus would give it now and exec does not use it (log 8). A byte without
an entry ends in the fault's state, in which the tick of the fetch is complete (DESIGN CHOICE, log 6). -/
def State.fetchInstr (s : State) : Fetched :=
  match opcodeForm (s.fetchedByte 0) with
  | none => .illegal (s.fetchedByte 0) ((s.afterFetch 1).withFault (s.fetchedByte 0))
  | some (.one i) => .ready i (s.afterFetch 1)
  | some (.two f) => .ready (f (s.fetchedByte 1)) (s.afterFetch 2)
  | some (.three f) => .ready (f (word (s.fetchedByte 2) (s.fetchedByte 1))) (s.afterFetch 3)
  | some (.call f) => .ready (f (word (s.fetchedByte 2) (s.fetchedByte 1))) (s.afterFetch 2)

/-- Bytes put straight into the cells from an address on (10_state.md R45). -/
def Console.pokeList : List Byte → Addr → Console → Console
  | [], _, c => c
  | v :: vs, a, c => Console.pokeList vs (a + 1) (c.poke a v)

/-- An address holds a stored byte. -/
def Console.hasCell (a : Addr) (c : Console) : Bool := (c.cellOf a).isSome

/-- Where the loader places an instruction: at PC where three stored bytes lie there, else at 0x0200 (log 3). -/
def State.placeAddr (s : State) : Addr :=
  if s.con.hasCell s.cpu.pc && s.con.hasCell (s.cpu.pc + 1) && s.con.hasCell (s.cpu.pc + 2) then s.cpu.pc
  else 0x0200

/-- The state with an instruction's bytes placed at `placeAddr`, PC there, idle, no fault, no request pending. -/
def State.placeInstruction (bytes : List Byte) (s : State) : State :=
  { s with
    con := s.con.pokeList bytes s.placeAddr
    cpu := { s.cpu with
      pc := s.placeAddr
      resetReq := false
      nmiReq := false
      irqReq := false
      control := .idle
      fault := none } }

end Sys2Proof.Machine
end

