-- ==== Sys2Proof/Machine/LoadStore.lean ====
section
/-! DEFINITION. The meanings of the loads, stores, register transfers
(41_load_store_transfer.md R170 to R181; rule numbers without a file are that file's). A meaning runs on
the state after the instruction's bytes have been fetched (log 24). -/

namespace Sys2Proof.Machine

/-! ## What each mnemonic does to the registers -/

/-- LDA: `A <- m`; `SetNZ(m)` (R170). -/
def Cpu.lda (m : Byte) (c : Cpu) : Cpu := { c with a := m, p := c.p.setNZ m }

/-- LDX: `X <- m`; `SetNZ(m)` (R171). -/
def Cpu.ldx (m : Byte) (c : Cpu) : Cpu := { c with x := m, p := c.p.setNZ m }

/-- LDY: `Y <- m`; `SetNZ(m)` (R172). -/
def Cpu.ldy (m : Byte) (c : Cpu) : Cpu := { c with y := m, p := c.p.setNZ m }

/-- TAX: `X <- A`; `SetNZ(A)` (R176). -/
def Cpu.tax (c : Cpu) : Cpu := { c with x := c.a, p := c.p.setNZ c.a }

/-- TAY: `Y <- A`; `SetNZ(A)` (R177). -/
def Cpu.tay (c : Cpu) : Cpu := { c with y := c.a, p := c.p.setNZ c.a }

/-- TXA: `A <- X`; `SetNZ(X)` (R178). -/
def Cpu.txa (c : Cpu) : Cpu := { c with a := c.x, p := c.p.setNZ c.x }

/-- TYA: `A <- Y`; `SetNZ(Y)` (R179). -/
def Cpu.tya (c : Cpu) : Cpu := { c with a := c.y, p := c.p.setNZ c.y }

/-- TSX: `X <- SP`; `SetNZ(SP)` (R180). -/
def Cpu.tsx (c : Cpu) : Cpu := { c with x := c.sp, p := c.p.setNZ c.sp }

/-- TXS: `SP <- X`, "the one transfer that does not set `Z` and `N`" (R181). -/
def Cpu.txs (c : Cpu) : Cpu := { c with sp := c.x }

/-! ## The meanings -/

/-- LDA immediate, opcode A9 (R170). -/
def execLdaImm (d : Byte) (s : State) : Outcome := immediateClass Cpu.lda d s

/-- LDA zero page, opcode A5 (R170). -/
def execLdaZp (d : Byte) (s : State) : Outcome := readClass Cpu.lda (.zp d) s

/-- LDA zero page,X, opcode B5 (R170). -/
def execLdaZpx (d : Byte) (s : State) : Outcome := readClass Cpu.lda (.zpx d) s

/-- LDA absolute, opcode AD (R170). -/
def execLdaAbs (w : Addr) (s : State) : Outcome := readClass Cpu.lda (.abs w) s

/-- LDA absolute,X, opcode BD (R170). -/
def execLdaAbx (w : Addr) (s : State) : Outcome := readClass Cpu.lda (.abx w) s

/-- LDA absolute,Y, opcode B9 (R170). -/
def execLdaAby (w : Addr) (s : State) : Outcome := readClass Cpu.lda (.aby w) s

/-- LDA (zp,X), opcode A1 (R170). -/
def execLdaIzx (d : Byte) (s : State) : Outcome := readClass Cpu.lda (.izx d) s

/-- LDA (zp),Y, opcode B1 (R170). -/
def execLdaIzy (d : Byte) (s : State) : Outcome := readClass Cpu.lda (.izy d) s

/-- LDX immediate, opcode A2 (R171). -/
def execLdxImm (d : Byte) (s : State) : Outcome := immediateClass Cpu.ldx d s

/-- LDX zero page, opcode A6 (R171). -/
def execLdxZp (d : Byte) (s : State) : Outcome := readClass Cpu.ldx (.zp d) s

/-- LDX zero page,Y, opcode B6 (R171). -/
def execLdxZpy (d : Byte) (s : State) : Outcome := readClass Cpu.ldx (.zpy d) s

/-- LDX absolute, opcode AE (R171). -/
def execLdxAbs (w : Addr) (s : State) : Outcome := readClass Cpu.ldx (.abs w) s

/-- LDX absolute,Y, opcode BE (R171). -/
def execLdxAby (w : Addr) (s : State) : Outcome := readClass Cpu.ldx (.aby w) s

/-- LDY immediate, opcode A0 (R172). -/
def execLdyImm (d : Byte) (s : State) : Outcome := immediateClass Cpu.ldy d s

/-- LDY zero page, opcode A4 (R172). -/
def execLdyZp (d : Byte) (s : State) : Outcome := readClass Cpu.ldy (.zp d) s

/-- LDY zero page,X, opcode B4 (R172). -/
def execLdyZpx (d : Byte) (s : State) : Outcome := readClass Cpu.ldy (.zpx d) s

/-- LDY absolute, opcode AC (R172). -/
def execLdyAbs (w : Addr) (s : State) : Outcome := readClass Cpu.ldy (.abs w) s

/-- LDY absolute,X, opcode BC (R172). -/
def execLdyAbx (w : Addr) (s : State) : Outcome := readClass Cpu.ldy (.abx w) s

/-- STA zero page, opcode 85 (R173). -/
def execStaZp (d : Byte) (s : State) : Outcome := writeClass Cpu.a (.zp d) s

/-- STA zero page,X, opcode 95 (R173). -/
def execStaZpx (d : Byte) (s : State) : Outcome := writeClass Cpu.a (.zpx d) s

/-- STA absolute, opcode 8D (R173). -/
def execStaAbs (w : Addr) (s : State) : Outcome := writeClass Cpu.a (.abs w) s

/-- STA absolute,X, opcode 9D (R173). -/
def execStaAbx (w : Addr) (s : State) : Outcome := writeClass Cpu.a (.abx w) s

/-- STA absolute,Y, opcode 99 (R173). -/
def execStaAby (w : Addr) (s : State) : Outcome := writeClass Cpu.a (.aby w) s

/-- STA (zp,X), opcode 81 (R173). -/
def execStaIzx (d : Byte) (s : State) : Outcome := writeClass Cpu.a (.izx d) s

/-- STA (zp),Y, opcode 91 (R173). -/
def execStaIzy (d : Byte) (s : State) : Outcome := writeClass Cpu.a (.izy d) s

/-- STX zero page, opcode 86 (R174). -/
def execStxZp (d : Byte) (s : State) : Outcome := writeClass Cpu.x (.zp d) s

/-- STX zero page,Y, opcode 96 (R174). -/
def execStxZpy (d : Byte) (s : State) : Outcome := writeClass Cpu.x (.zpy d) s

/-- STX absolute, opcode 8E (R174). -/
def execStxAbs (w : Addr) (s : State) : Outcome := writeClass Cpu.x (.abs w) s

/-- STY zero page, opcode 84 (R175). -/
def execStyZp (d : Byte) (s : State) : Outcome := writeClass Cpu.y (.zp d) s

/-- STY zero page,X, opcode 94 (R175). -/
def execStyZpx (d : Byte) (s : State) : Outcome := writeClass Cpu.y (.zpx d) s

/-- STY absolute, opcode 8C (R175). -/
def execStyAbs (w : Addr) (s : State) : Outcome := writeClass Cpu.y (.abs w) s

/-- TAX, opcode AA (R176). -/
def execTax (s : State) : Outcome := impliedClass Cpu.tax s

/-- TAY, opcode A8 (R177). -/
def execTay (s : State) : Outcome := impliedClass Cpu.tay s

/-- TXA, opcode 8A (R178). -/
def execTxa (s : State) : Outcome := impliedClass Cpu.txa s

/-- TYA, opcode 98 (R179). -/
def execTya (s : State) : Outcome := impliedClass Cpu.tya s

/-- TSX, opcode BA (R180). -/
def execTsx (s : State) : Outcome := impliedClass Cpu.tsx s

/-- TXS, opcode 9A (R181). -/
def execTxs (s : State) : Outcome := impliedClass Cpu.txs s

end Sys2Proof.Machine
end

