-- ==== Sys2Proof/Machine/Shift.lean ====
section
/-! DEFINITION. The meanings of the shifts, rotates, increments, decrements
(43_shift_rotate_incdec.md R230 to R239; rule numbers without a file are that file's). A meaning runs on
the state after the instruction's bytes have been fetched (log 24). -/

namespace Sys2Proof.Machine

/-! ## What each mnemonic computes: the new byte from the old one, the status after it -/

/-- ASL, the new byte (R230). -/
def aslNew (v : Byte) (_ : Status) : Byte := aslByte v

/-- ASL, the status (R230). -/
def aslFlags (v : Byte) (p : Status) : Status := shiftLeftStatus v (aslByte v) p

/-- LSR, the new byte (R231). -/
def lsrNew (v : Byte) (_ : Status) : Byte := lsrByte v

/-- LSR, the status (R231). -/
def lsrFlags (v : Byte) (p : Status) : Status := shiftRightStatus v (lsrByte v) p

/-- ROL, the new byte (R232). -/
def rolNew (v : Byte) (p : Status) : Byte := rolByte v p.c

/-- ROL, the status (R232). -/
def rolFlags (v : Byte) (p : Status) : Status := shiftLeftStatus v (rolByte v p.c) p

/-- ROR, the new byte (R233). -/
def rorNew (v : Byte) (p : Status) : Byte := rorByte v p.c

/-- ROR, the status (R233). -/
def rorFlags (v : Byte) (p : Status) : Status := shiftRightStatus v (rorByte v p.c) p

/-- INC, the new byte `u8(v + 1)` (R234). -/
def incNew (v : Byte) (_ : Status) : Byte := v + 1

/-- INC, the status: "the carry out of the increment is lost" (R234). -/
def incFlags (v : Byte) (p : Status) : Status := p.setNZ (v + 1)

/-- DEC, the new byte `u8(v - 1)` (R235). -/
def decNew (v : Byte) (_ : Status) : Byte := v - 1

/-- DEC, the status (R235). -/
def decFlags (v : Byte) (p : Status) : Status := p.setNZ (v - 1)

/-- INX: `X <- u8(X + 1)`; `SetNZ` (R236). -/
def Cpu.inx (c : Cpu) : Cpu := { c with x := c.x + 1, p := c.p.setNZ (c.x + 1) }

/-- INY: `Y <- u8(Y + 1)`; `SetNZ` (R237). -/
def Cpu.iny (c : Cpu) : Cpu := { c with y := c.y + 1, p := c.p.setNZ (c.y + 1) }

/-- DEX: `X <- u8(X - 1)`; `SetNZ` (R238). -/
def Cpu.dex (c : Cpu) : Cpu := { c with x := c.x - 1, p := c.p.setNZ (c.x - 1) }

/-- DEY: `Y <- u8(Y - 1)`; `SetNZ` (R239). -/
def Cpu.dey (c : Cpu) : Cpu := { c with y := c.y - 1, p := c.p.setNZ (c.y - 1) }

/-! ## The meanings -/

/-- ASL accumulator, opcode 0A (R230). -/
def execAslAcc (s : State) : Outcome := accumulatorClass aslNew aslFlags s

/-- ASL zero page, opcode 06 (R230). -/
def execAslZp (d : Byte) (s : State) : Outcome := modifyClass aslNew aslFlags (.zp d) s

/-- ASL zero page,X, opcode 16 (R230). -/
def execAslZpx (d : Byte) (s : State) : Outcome := modifyClass aslNew aslFlags (.zpx d) s

/-- ASL absolute, opcode 0E (R230). -/
def execAslAbs (w : Addr) (s : State) : Outcome := modifyClass aslNew aslFlags (.abs w) s

/-- ASL absolute,X, opcode 1E (R230). -/
def execAslAbx (w : Addr) (s : State) : Outcome := modifyClass aslNew aslFlags (.abx w) s

/-- LSR accumulator, opcode 4A (R231). -/
def execLsrAcc (s : State) : Outcome := accumulatorClass lsrNew lsrFlags s

/-- LSR zero page, opcode 46 (R231). -/
def execLsrZp (d : Byte) (s : State) : Outcome := modifyClass lsrNew lsrFlags (.zp d) s

/-- LSR zero page,X, opcode 56 (R231). -/
def execLsrZpx (d : Byte) (s : State) : Outcome := modifyClass lsrNew lsrFlags (.zpx d) s

/-- LSR absolute, opcode 4E (R231). -/
def execLsrAbs (w : Addr) (s : State) : Outcome := modifyClass lsrNew lsrFlags (.abs w) s

/-- LSR absolute,X, opcode 5E (R231). -/
def execLsrAbx (w : Addr) (s : State) : Outcome := modifyClass lsrNew lsrFlags (.abx w) s

/-- ROL accumulator, opcode 2A (R232). -/
def execRolAcc (s : State) : Outcome := accumulatorClass rolNew rolFlags s

/-- ROL zero page, opcode 26 (R232). -/
def execRolZp (d : Byte) (s : State) : Outcome := modifyClass rolNew rolFlags (.zp d) s

/-- ROL zero page,X, opcode 36 (R232). -/
def execRolZpx (d : Byte) (s : State) : Outcome := modifyClass rolNew rolFlags (.zpx d) s

/-- ROL absolute, opcode 2E (R232). -/
def execRolAbs (w : Addr) (s : State) : Outcome := modifyClass rolNew rolFlags (.abs w) s

/-- ROL absolute,X, opcode 3E (R232). -/
def execRolAbx (w : Addr) (s : State) : Outcome := modifyClass rolNew rolFlags (.abx w) s

/-- ROR accumulator, opcode 6A (R233). -/
def execRorAcc (s : State) : Outcome := accumulatorClass rorNew rorFlags s

/-- ROR zero page, opcode 66 (R233). -/
def execRorZp (d : Byte) (s : State) : Outcome := modifyClass rorNew rorFlags (.zp d) s

/-- ROR zero page,X, opcode 76 (R233). -/
def execRorZpx (d : Byte) (s : State) : Outcome := modifyClass rorNew rorFlags (.zpx d) s

/-- ROR absolute, opcode 6E (R233). -/
def execRorAbs (w : Addr) (s : State) : Outcome := modifyClass rorNew rorFlags (.abs w) s

/-- ROR absolute,X, opcode 7E (R233). -/
def execRorAbx (w : Addr) (s : State) : Outcome := modifyClass rorNew rorFlags (.abx w) s

/-- INC zero page, opcode E6 (R234). -/
def execIncZp (d : Byte) (s : State) : Outcome := modifyClass incNew incFlags (.zp d) s

/-- INC zero page,X, opcode F6 (R234). -/
def execIncZpx (d : Byte) (s : State) : Outcome := modifyClass incNew incFlags (.zpx d) s

/-- INC absolute, opcode EE (R234). -/
def execIncAbs (w : Addr) (s : State) : Outcome := modifyClass incNew incFlags (.abs w) s

/-- INC absolute,X, opcode FE (R234). -/
def execIncAbx (w : Addr) (s : State) : Outcome := modifyClass incNew incFlags (.abx w) s

/-- DEC zero page, opcode C6 (R235). -/
def execDecZp (d : Byte) (s : State) : Outcome := modifyClass decNew decFlags (.zp d) s

/-- DEC zero page,X, opcode D6 (R235). -/
def execDecZpx (d : Byte) (s : State) : Outcome := modifyClass decNew decFlags (.zpx d) s

/-- DEC absolute, opcode CE (R235). -/
def execDecAbs (w : Addr) (s : State) : Outcome := modifyClass decNew decFlags (.abs w) s

/-- DEC absolute,X, opcode DE (R235). -/
def execDecAbx (w : Addr) (s : State) : Outcome := modifyClass decNew decFlags (.abx w) s

/-- INX, opcode E8 (R236). -/
def execInx (s : State) : Outcome := impliedClass Cpu.inx s

/-- INY, opcode C8 (R237). -/
def execIny (s : State) : Outcome := impliedClass Cpu.iny s

/-- DEX, opcode CA (R238). -/
def execDex (s : State) : Outcome := impliedClass Cpu.dex s

/-- DEY, opcode 88 (R239). -/
def execDey (s : State) : Outcome := impliedClass Cpu.dey s

end Sys2Proof.Machine
end

