-- ==== Sys2Proof/Machine/System.lean ====
section
/-! DEFINITION. The meanings of the stack, flag and system instructions
(45_stack_flag_system.md R290 to R304; rule numbers without a file are that file's). A meaning runs on
the state after the instruction's bytes have been fetched (log 24). -/

namespace Sys2Proof.Machine

/-! ## Stack and flag operations -/

/-- What PHP pushes: `PackP(0b11)` (R291). -/
def Cpu.phpByte (c : Cpu) : Byte := c.p.pack 0b11

/-- PHA and PHP, rows 2 and 3 (40_addressing_and_cycles.md R140). -/
def State.pushRows (reg : Cpu → Byte) (s : State) : State := (s.dummyRead s.cpu.pc).push (reg s.cpu)

/-- PLA and PLP, rows 2 to 4 (40_addressing_and_cycles.md R143). -/
def State.pullRows (op : Byte → Cpu → Cpu) (s : State) : State :=
  let s3 := (s.dummyRead s.cpu.pc).pullRow
  s3.stackRead.mapCpu (op s3.stackValue)

/-- PLA: `A <- v`; `SetNZ(v)` (R292). -/
def Cpu.pla (v : Byte) (c : Cpu) : Cpu := { c with a := v, p := c.p.setNZ v }

/-- PLP: `UnpackP(v)` (R293). -/
def Cpu.plp (v : Byte) (c : Cpu) : Cpu := { c with p := Status.unpack v }

/-- CLC: `P.C <- 0` (R294). -/
def Cpu.clc (c : Cpu) : Cpu := { c with p := { c.p with c := false } }

/-- SEC: `P.C <- 1` (R295). -/
def Cpu.sec (c : Cpu) : Cpu := { c with p := { c.p with c := true } }

/-- CLI: `P.I <- 0` (R296). -/
def Cpu.cli (c : Cpu) : Cpu := { c with p := { c.p with i := false } }

/-- SEI: `P.I <- 1` (R297). -/
def Cpu.sei (c : Cpu) : Cpu := { c with p := { c.p with i := true } }

/-- CLD: `P.D <- 0` (R298). -/
def Cpu.cld (c : Cpu) : Cpu := { c with p := { c.p with d := false } }

/-- SED: `P.D <- 1` (R299). -/
def Cpu.sed (c : Cpu) : Cpu := { c with p := { c.p with d := true } }

/-- CLV: `P.V <- 0` (R300). -/
def Cpu.clv (c : Cpu) : Cpu := { c with p := { c.p with v := false } }

/-- NOP: no register and no flag (R301). -/
def Cpu.nop (c : Cpu) : Cpu := c

/-- BRK, rows 2 to 7: fetch the padding byte, then the interrupt sequence's pushes and vector with
`PackP(0b11)` (R303; 60_exceptions.md R344). -/
def State.softwareInterrupt (s : State) : State := s.fetch.takeInterrupt 0b11 vecIrqBrk

/-- RTI, rows 2 to 6 (R304). -/
def State.interruptReturn (s : State) : State := (s.dummyRead s.cpu.pc).returnFromInterrupt

/-! ## The meanings -/

/-- PHA, opcode 48 (R290). -/
def execPha (s : State) : Outcome := .next (s.pushRows Cpu.a)

/-- PHP, opcode 08 (R291). -/
def execPhp (s : State) : Outcome := .next (s.pushRows Cpu.phpByte)

/-- PLA, opcode 68 (R292). -/
def execPla (s : State) : Outcome := .next (s.pullRows Cpu.pla)

/-- PLP, opcode 28 (R293). -/
def execPlp (s : State) : Outcome := .next (s.pullRows Cpu.plp)

/-- CLC, opcode 18 (R294). -/
def execClc (s : State) : Outcome := impliedClass Cpu.clc s

/-- SEC, opcode 38 (R295). -/
def execSec (s : State) : Outcome := impliedClass Cpu.sec s

/-- CLI, opcode 58 (R296). -/
def execCli (s : State) : Outcome := impliedClass Cpu.cli s

/-- SEI, opcode 78 (R297). -/
def execSei (s : State) : Outcome := impliedClass Cpu.sei s

/-- CLD, opcode D8 (R298). -/
def execCld (s : State) : Outcome := impliedClass Cpu.cld s

/-- SED, opcode F8 (R299). -/
def execSed (s : State) : Outcome := impliedClass Cpu.sed s

/-- CLV, opcode B8 (R300). -/
def execClv (s : State) : Outcome := impliedClass Cpu.clv s

/-- NOP, opcode EA (R301). -/
def execNop (s : State) : Outcome := impliedClass Cpu.nop s

/-- BRK, opcode 00 (R303). -/
def execBrk (s : State) : Outcome := .next s.softwareInterrupt

/-- RTI, opcode 40 (R304). -/
def execRti (s : State) : Outcome := .next s.interruptReturn

end Sys2Proof.Machine
end

