-- ==== Sys2Proof/Machine/Cycle.lean ====
section
/-! DEFINITION. The core clocked one bus cycle at a time: `cycle()` with every row of every sequence table
(40_addressing_and_cycles.md R120 to R147; 60_exceptions.md R340 to R350), `performNextInstruction()`, and what the ports show
(10_state.md R40 to R44). Rule numbers without a file are those of 40_addressing_and_cycles.md. -/

namespace Sys2Proof.Machine

/-! ## What each mnemonic does, as the sequence tables use it (R124) -/

/-- The access class of a mnemonic with its operation, or the special sequence it has. -/
inductive Operation where
  | read (op : Byte → Cpu → Cpu)
  | write (reg : Cpu → Byte)
  | modify (new : Byte → Status → Byte) (flags : Byte → Status → Status)
  | implied (op : Cpu → Cpu)
  | branch (cond : Status → Bool)
  | push (reg : Cpu → Byte)
  | pull (op : Byte → Cpu → Cpu)
  | jump
  | call
  | subroutineReturn
  | softwareInterrupt
  | interruptReturn

end Sys2Proof.Machine

namespace Sys2Proof

open Sys2Proof.Machine

/-- The operation of a mnemonic (R124, R106). -/
def Mnemonic.operation : Mnemonic → Operation
  | .lda => .read Cpu.lda
  | .ldx => .read Cpu.ldx
  | .ldy => .read Cpu.ldy
  | .sta => .write Cpu.a
  | .stx => .write Cpu.x
  | .sty => .write Cpu.y
  | .tax => .implied Cpu.tax
  | .tay => .implied Cpu.tay
  | .txa => .implied Cpu.txa
  | .tya => .implied Cpu.tya
  | .tsx => .implied Cpu.tsx
  | .txs => .implied Cpu.txs
  | .adc => .read Cpu.adc
  | .sbc => .read Cpu.sbc
  | .and => .read Cpu.and
  | .ora => .read Cpu.ora
  | .eor => .read Cpu.eor
  | .cmp => .read Cpu.cmp
  | .cpx => .read Cpu.cpx
  | .cpy => .read Cpu.cpy
  | .bit => .read Cpu.bit
  | .asl => .modify aslNew aslFlags
  | .lsr => .modify lsrNew lsrFlags
  | .rol => .modify rolNew rolFlags
  | .ror => .modify rorNew rorFlags
  | .inc => .modify incNew incFlags
  | .dec => .modify decNew decFlags
  | .inx => .implied Cpu.inx
  | .iny => .implied Cpu.iny
  | .dex => .implied Cpu.dex
  | .dey => .implied Cpu.dey
  | .bpl => .branch condPl
  | .bmi => .branch condMi
  | .bvc => .branch condVc
  | .bvs => .branch condVs
  | .bcc => .branch condCc
  | .bcs => .branch condCs
  | .bne => .branch condNe
  | .beq => .branch condEq
  | .jmp => .jump
  | .jsr => .call
  | .rts => .subroutineReturn
  | .pha => .push Cpu.a
  | .php => .push Cpu.phpByte
  | .pla => .pull Cpu.pla
  | .plp => .pull Cpu.plp
  | .clc => .implied Cpu.clc
  | .sec => .implied Cpu.sec
  | .cli => .implied Cpu.cli
  | .sei => .implied Cpu.sei
  | .cld => .implied Cpu.cld
  | .sed => .implied Cpu.sed
  | .clv => .implied Cpu.clv
  | .nop => .implied Cpu.nop
  | .brk => .softwareInterrupt
  | .rti => .interruptReturn

end Sys2Proof

namespace Sys2Proof.Machine

/-! ## Rows -/

/-- One row of a sequence table: its bus access and the register updates, which read the registers as they
were before the cycle (R121). A dummy read's byte is discarded (R123). -/
inductive Row where
  | read (a : Addr) (update : Byte → Cpu → Cpu)
  | write (a : Addr) (v : Byte) (update : Cpu → Cpu)
  | dummyRead (a : Addr) (update : Cpu → Cpu)
  | dummyWrite (a : Addr) (v : Byte) (update : Cpu → Cpu)

/-- The state after a row. -/
def Row.perform (r : Row) (s : State) : State :=
  match r with
  | .read a f => (s.read a).mapCpu (f (s.value a))
  | .write a v f => (s.write a v).mapCpu f
  | .dummyRead a f => (s.dummyRead a).mapCpu f
  | .dummyWrite a v f => (s.dummyWrite a v).mapCpu f

/-- The address being formed, `ad = {adh, adl}` (10_state.md R34). -/
def InFlight.ad (k : InFlight) : Addr := word k.adh k.adl

/-- *retire*: back to idle. -/
def Cpu.retire (c : Cpu) : Cpu := { c with control := .idle }

/-- `t <- t + 1` with the latches `k`. -/
def Cpu.advance (k : InFlight) (c : Cpu) : Cpu := { c with control := .busy { k with t := k.t + 1 } }

/-- `PC <- u16(PC + 1)`, the register half of `Fetch()`. -/
def Cpu.incPc (c : Cpu) : Cpu := { c with pc := c.pc + 1 }

/-- `SP <- u8(SP + 1)`. -/
def Cpu.incSp (c : Cpu) : Cpu := { c with sp := c.sp + 1 }

/-- `SP <- u8(SP - 1)`. -/
def Cpu.decSp (c : Cpu) : Cpu := { c with sp := c.sp - 1 }

/-- `PC <- target`, *retire*. -/
def Cpu.jumpTo (target : Addr) (c : Cpu) : Cpu := ({ c with pc := target }).retire

/-- A row that fetches an instruction byte into the latches. -/
def fetchRow (k : Byte → InFlight) (c : Cpu) : Row := .read c.pc (fun v c => c.incPc.advance (k v))

/-- A push row: write at SP, then SP lowered (R146). -/
def pushRow (v : Byte) (k : InFlight) (c : Cpu) : Row :=
  .write (stackAddr c.sp) v (fun c => c.decSp.advance k)

/-- The first rows of the one-byte instructions: a dummy read at PC. -/
def idleRow (k : InFlight) (c : Cpu) : Row := .dummyRead c.pc (fun c => c.advance k)

/-- The row that makes a pull's increment (R146). -/
def pullStartRow (k : InFlight) (c : Cpu) : Row :=
  .dummyRead (stackAddr c.sp) (fun c => c.incSp.advance k)

/-- The last rows of an operand instruction, `j` rows after the address is complete (R127 to R133; the
modify tail R131). -/
def tailRow (op : Operation) (j : Nat) (k : InFlight) (c : Cpu) : Option Row :=
  match op, j with
  | .read f, 0 => some (.read k.ad (fun m c => (f m c).retire))
  | .write reg, 0 => some (.write k.ad (reg c) Cpu.retire)
  | .modify _ _, 0 => some (.read k.ad (fun v c => c.advance { k with dat := v }))
  | .modify new flags, 1 =>
    some (.dummyWrite k.ad k.dat (fun c =>
      Cpu.advance { k with dat := new k.dat c.p } { c with p := flags k.dat c.p }))
  | .modify _ _, 2 => some (.write k.ad k.dat Cpu.retire)
  | _, _ => none

/-- The row that corrects the page, or the effective access itself where a read crosses none (R130, R133). -/
def pageRow (op : Operation) (k : InFlight) (c : Cpu) : Option Row :=
  match op, k.carry with
  | .read _, false => tailRow op 0 k c
  | _, _ => some (.dummyRead k.ad (fun c => c.advance { k with adh := k.adh + bit k.carry }))

/-- The latches once the high address byte `h` is there and the index is added to the low byte (R130, R133). -/
def InFlight.indexed (h idx : Byte) (k : InFlight) : InFlight :=
  { k with adh := h, carry := decide (0xFF < k.adl.toNat + idx.toNat), adl := k.adl + idx }

/-- ZP (R127). -/
def zpRow (op : Operation) (k : InFlight) (c : Cpu) : Option Row :=
  match k.t with
  | 2 => some (fetchRow (fun v => { k with adl := v, adh := 0x00 }) c)
  | t + 3 => tailRow op t k c
  | _ => none

/-- ZPX and ZPY (R128). -/
def zpIndexedRow (idx : Byte) (op : Operation) (k : InFlight) (c : Cpu) : Option Row :=
  match k.t with
  | 2 => some (fetchRow (fun v => { k with adl := v, adh := 0x00 }) c)
  | 3 => some (.dummyRead k.ad (fun c => c.advance { k with adl := k.adl + idx }))
  | t + 4 => tailRow op t k c
  | _ => none

/-- ABS (R129), with the rows of JMP (R137) and JSR (R141). -/
def absRow (op : Operation) (k : InFlight) (c : Cpu) : Option Row :=
  match op, k.t with
  | _, 2 => some (fetchRow (fun v => { k with adl := v }) c)
  | .jump, 3 => some (.read c.pc (fun v c => c.jumpTo (word v k.adl)))
  | .call, 3 => some (.dummyRead (stackAddr c.sp) (fun c => c.advance k))
  | .call, 4 => some (pushRow (hi c.pc) k c)
  | .call, 5 => some (pushRow (lo c.pc) k c)
  | .call, 6 => some (.read c.pc (fun v c => c.jumpTo (word v k.adl)))
  | _, 3 => some (fetchRow (fun v => { k with adh := v }) c)
  | op, t + 4 => tailRow op t k c
  | _, _ => none

/-- ABX and ABY (R130). -/
def absIndexedRow (idx : Byte) (op : Operation) (k : InFlight) (c : Cpu) : Option Row :=
  match k.t with
  | 2 => some (fetchRow (fun v => { k with adl := v }) c)
  | 3 => some (fetchRow (fun v => k.indexed v idx) c)
  | 4 => pageRow op k c
  | t + 5 => tailRow op t k c
  | _ => none

/-- IZX (R132). -/
def izxRow (op : Operation) (k : InFlight) (c : Cpu) : Option Row :=
  match k.t with
  | 2 => some (fetchRow (fun v => { k with ptr := v }) c)
  | 3 => some (.dummyRead (zeroPage k.ptr) (fun c => c.advance { k with ptr := k.ptr + c.x }))
  | 4 => some (.read (zeroPage k.ptr) (fun v c => c.advance { k with adl := v }))
  | 5 => some (.read (zeroPage (k.ptr + 1)) (fun v c => c.advance { k with adh := v }))
  | t + 6 => tailRow op t k c
  | _ => none

/-- IZY (R133). -/
def izyRow (op : Operation) (k : InFlight) (c : Cpu) : Option Row :=
  match k.t with
  | 2 => some (fetchRow (fun v => { k with ptr := v }) c)
  | 3 => some (.read (zeroPage k.ptr) (fun v c => c.advance { k with adl := v }))
  | 4 => some (.read (zeroPage (k.ptr + 1)) (fun v c => c.advance (k.indexed v c.y)))
  | 5 => pageRow op k c
  | t + 6 => tailRow op t k c
  | _ => none

/-- REL (R135). In row 4 PC has the low byte of the target and the page of `pcn`, whose low byte is
recovered from the displacement. -/
def relRow (op : Operation) (k : InFlight) (c : Cpu) : Option Row :=
  match op, k.t with
  | .branch cond, 2 =>
    some (.read c.pc (fun v c =>
      if cond c.p then c.incPc.advance { k with dat := v } else c.incPc.retire))
  | .branch _, 3 =>
    some (.dummyRead c.pc (fun c =>
      let r := { c with pc := branchUncorrected c.pc k.dat }
      if branchCrosses c.pc k.dat then r.advance k else r.retire))
  | .branch _, 4 =>
    some (.dummyRead c.pc (fun c => c.jumpTo (branchTarget (word (hi c.pc) (lo c.pc - k.dat)) k.dat)))
  | _, _ => none

/-- JMP IND (R136). -/
def indRow (k : InFlight) (c : Cpu) : Option Row :=
  match k.t with
  | 2 => some (fetchRow (fun v => { k with adl := v }) c)
  | 3 => some (fetchRow (fun v => { k with adh := v }) c)
  | 4 => some (.read k.ad (fun v c => c.advance { k with dat := v }))
  | 5 => some (.read (pointerHigh k.ad) (fun v c => c.jumpTo (word v k.dat)))
  | _ => none

/-- The rows of a vector: low byte and `I <- 1`, then high byte and the jump (R142; 60_exceptions.md R345). -/
def vectorRow (vec : Addr) (k : InFlight) : Option Row :=
  match k.t with
  | 6 => some (.read vec (fun v c => Cpu.advance { k with adl := v } { c with p := { c.p with i := true } }))
  | 7 => some (.read (vec + 1) (fun v c => c.jumpTo (word v k.adl)))
  | _ => none

/-- IMP (R125), PHA and PHP (R140), PLA and PLP (R143), RTS (R144), RTI (R145), BRK (R142). -/
def impRow (op : Operation) (k : InFlight) (c : Cpu) : Option Row :=
  match op, k.t with
  | .implied f, 2 => some (.dummyRead c.pc (fun c => (f c).retire))
  | .push _, 2 => some (idleRow k c)
  | .push reg, 3 => some (.write (stackAddr c.sp) (reg c) (fun c => c.decSp.retire))
  | .pull _, 2 => some (idleRow k c)
  | .pull _, 3 => some (pullStartRow k c)
  | .pull f, 4 => some (.read (stackAddr c.sp) (fun v c => (f v c).retire))
  | .subroutineReturn, 2 => some (idleRow k c)
  | .subroutineReturn, 3 => some (pullStartRow k c)
  | .subroutineReturn, 4 =>
    some (.read (stackAddr c.sp) (fun v c => c.incSp.advance { k with adl := v }))
  | .subroutineReturn, 5 =>
    some (.read (stackAddr c.sp) (fun v c =>
      Cpu.advance { k with adh := v } { c with pc := word v k.adl }))
  | .subroutineReturn, 6 => some (.dummyRead c.pc (fun c => c.incPc.retire))
  | .interruptReturn, 2 => some (idleRow k c)
  | .interruptReturn, 3 => some (pullStartRow k c)
  | .interruptReturn, 4 =>
    some (.read (stackAddr c.sp) (fun v c => ({ c with p := Status.unpack v }).incSp.advance k))
  | .interruptReturn, 5 =>
    some (.read (stackAddr c.sp) (fun v c => c.incSp.advance { k with adl := v }))
  | .interruptReturn, 6 => some (.read (stackAddr c.sp) (fun v c => c.jumpTo (word v k.adl)))
  | .softwareInterrupt, 2 => some (fetchRow (fun _ => k) c)
  | .softwareInterrupt, 3 => some (pushRow (hi c.pc) k c)
  | .softwareInterrupt, 4 => some (pushRow (lo c.pc) k c)
  | .softwareInterrupt, 5 => some (pushRow (c.p.pack 0b11) k c)
  | .softwareInterrupt, _ => vectorRow vecIrqBrk k
  | _, _ => none

/-- ACC (R125). -/
def accRow (op : Operation) (k : InFlight) (c : Cpu) : Option Row :=
  match op, k.t with
  | .modify new flags, 2 =>
    some (.dummyRead c.pc (fun c => ({ c with a := new c.a c.p, p := flags c.a c.p }).retire))
  | _, _ => none

/-- IMM (R126). -/
def immRow (op : Operation) (k : InFlight) (c : Cpu) : Option Row :=
  match op, k.t with
  | .read f, 2 => some (.read c.pc (fun m c => (f m c.incPc).retire))
  | _, _ => none

/-- Row `t` of an instruction with this operation and addressing mode. -/
def instrRow (op : Operation) (mode : Mode) (k : InFlight) (c : Cpu) : Option Row :=
  match mode with
  | .imp => impRow op k c
  | .acc => accRow op k c
  | .imm => immRow op k c
  | .zp => zpRow op k c
  | .zpx => zpIndexedRow c.x op k c
  | .zpy => zpIndexedRow c.y op k c
  | .abs => absRow op k c
  | .abx => absIndexedRow c.x op k c
  | .aby => absIndexedRow c.y op k c
  | .ind => indRow k c
  | .izx => izxRow op k c
  | .izy => izyRow op k c
  | .rel => relRow op k c

/-- A RESET row 3, 4 or 5 (60_exceptions.md R345). -/
def resetStackRow (k : InFlight) (c : Cpu) : Row :=
  .dummyRead (stackAddr c.sp) (fun c => c.decSp.advance k)

/-- Row `t` of a hardware sequence, from row 2 on (60_exceptions.md R345). -/
def sequenceRow (b54 : BitVec 2) (q : Seq) (k : InFlight) (c : Cpu) : Option Row :=
  match q, k.t with
  | _, 2 => some (idleRow k c)
  | .reset, 3 => some (resetStackRow k c)
  | .reset, 4 => some (resetStackRow k c)
  | .reset, 5 => some (resetStackRow k c)
  | _, 3 => some (pushRow (hi c.pc) k c)
  | _, 4 => some (pushRow (lo c.pc) k c)
  | _, 5 => some (pushRow (c.p.pack b54) k c)
  | q, _ => vectorRow (vectorOf q) k

/-- The row the core performs next when it is in flight. -/
def InFlight.row (p : Params) (k : InFlight) (c : Cpu) : Option Row :=
  match k.seq with
  | .instr =>
    match optab k.ir with
    | none => none
    | some (mn, mode) => instrRow mn.operation mode k c
  | q => sequenceRow p.pushBitsHw q k c

/-- The execution state at the end of row 1: `t <- 2`; the latches have no meaning yet (10_state.md R35; log 9). -/
def InFlight.start (q : Seq) (ir : Byte) : InFlight where
  seq := q
  t := 2
  ir := ir
  adl := 0
  adh := 0
  ptr := 0
  dat := 0
  carry := false

/-- The core with its control state set. -/
def Cpu.setControl (x : Control) (c : Cpu) : Cpu := { c with control := x }

/-- Row 1 of a hardware sequence (60_exceptions.md R345). -/
def State.startSequence (q : Seq) (s : State) : State :=
  (s.dummyRead s.cpu.pc).mapCpu (Cpu.setControl (.busy (InFlight.start q 0)))

/-- Row 1 of an instruction (R122; 60_exceptions.md R331, R332). For a byte without an entry the spec gives the state of
the core; that the Console still completes
the tick of the fetch, device steps included, and steps no device in a later one is a DESIGN CHOICE (log 6). -/
def State.startInstruction (s : State) : Outcome :=
  match optab s.fetchValue with
  | none => .fault (.illegalOpcode s.fetchValue (s.fetch.withFault s.fetchValue))
  | some _ => .next (s.fetch.mapCpu (Cpu.setControl (.busy (InFlight.start .instr s.fetchValue))))

/-- `cycle()` (10_state.md R40; R120): exactly one row, or nothing while the core has its fault (60_exceptions.md R333;
for the devices log 6). -/
def cycle (s : State) : Outcome :=
  match s.cpu.fault with
  | some b => .fault (.illegalOpcode b s)
  | none =>
    match s.cpu.control with
    | .busy k =>
      match k.row s.params s.cpu with
      | none => .fault .noRow
      | some r => .next (r.perform s)
    | .idle =>
      match s.cpu.selected with
      | some q => .next (s.afterCheck.startSequence q)
      | none => s.afterCheck.startInstruction

/-- `cycle()` again and again until the core is idle; `n` is fuel, no sequence has more than 7 rows. -/
def runToIdle : Nat → State → Outcome
  | 0, _ => .fault .noRow
  | n + 1, s =>
    match cycle s with
    | .next t =>
      match t.cpu.control with
      | .idle => .next t
      | .busy _ => runToIdle n t
    | .fault f => .fault f
    | .refused r => .refused r

/-- `performNextInstruction()` (10_state.md R43): "repeatedly calls `cycle()` until the in-progress instruction
retires"; the state it leaves. `performNext` has the descriptor it returns as well. -/
def performNextInstruction (s : State) : Outcome := runToIdle 7 s

/-! ## What the ports show of the coming cycle (10_state.md R41, R43) -/

/-- The bus access of a cycle; none where `req = 0`. -/
inductive BusAccess where
  | read (a : Addr)
  | write (a : Addr) (v : Byte)
  deriving DecidableEq, Repr

/-- A dummy read on the bus (R123). -/
def DummyAccess.read (d : DummyAccess) (a : Addr) : Option BusAccess :=
  match d with
  | .nmos => some (.read a)
  | .none => Option.none

/-- A dummy write on the bus (R123). -/
def DummyAccess.write (d : DummyAccess) (a : Addr) (v : Byte) : Option BusAccess :=
  match d with
  | .nmos => some (.write a v)
  | .none => Option.none

/-- A row on the bus. -/
def Row.bus (d : DummyAccess) : Row → Option BusAccess
  | .read a _ => some (.read a)
  | .write a v _ => some (.write a v)
  | .dummyRead a _ => d.read a
  | .dummyWrite a v _ => d.write a v

/-- The bus ports in the coming cycle (10_state.md R41). -/
def State.bus (s : State) : Option BusAccess :=
  match s.cpu.fault with
  | some _ => none
  | none =>
    match s.cpu.control with
    | .busy k =>
      match k.row s.params s.cpu with
      | none => none
      | some r => r.bus s.params.dummyAccess
    | .idle =>
      match s.cpu.selected with
      | some _ => s.params.dummyAccess.read s.cpu.pc
      | none => some (.read s.cpu.pc)

/-- The bus accesses of the next `n` cycles, in order (none for a cycle without one). -/
def busTrace : Nat → State → List (Option BusAccess)
  | 0, _ => []
  | n + 1, s =>
    match cycle s with
    | .next t => s.bus :: busTrace n t
    | _ => [s.bus]

/-- The descriptor of the sequence in progress (10_state.md R43): "(opcode byte, mnemonic, addressing mode)" of
an instruction; that of an interrupt sequence is not specified and shows as the sequence (log 30). -/
inductive Descriptor where
  | instruction (opcode : Byte) (mnemonic : Mnemonic) (mode : Mode)
  | sequence (q : Seq)
  deriving DecidableEq, Repr

/-- The opcode table's entry of a byte, as a descriptor; none for an illegal byte. -/
def entryOf (b : Byte) : Option Descriptor := (optab b).map (fun e => .instruction b e.1 e.2)

/-- The descriptor of a sequence in flight. -/
def InFlight.descriptor (k : InFlight) : Option Descriptor :=
  match k.seq with
  | .instr => entryOf k.ir
  | q => some (.sequence q)

/-- The current-opcode descriptor lookup (10_state.md R44): "the opcode table entry (mnemonic, addressing mode) of
`ir`, or of the byte at `PC` when idle" (60_exceptions.md R364; the byte is that of the raw debug read; log 30). At
the fault `ir` is the offending byte, which has no entry. -/
def State.descriptor (s : State) : Option Descriptor :=
  match s.cpu.fault with
  | some b => entryOf b
  | none =>
    match s.cpu.control with
    | .idle => entryOf (s.debugValue s.cpu.pc)
    | .busy k => k.descriptor

/-- The descriptor of the sequence in flight; none in idle. -/
def Cpu.inFlightDescriptor (c : Cpu) : Option Descriptor :=
  match c.control with
  | .idle => none
  | .busy k => k.descriptor

/-- `retired` with `desc` (10_state.md R43): the coming cycle is the last of an instruction or sequence; with its
descriptor. Every sequence has more than one row, so its last cycle finds it in flight. -/
def State.retired (s : State) : Option Descriptor :=
  match cycle s with
  | .next t => if t.cpu.control = .idle then s.cpu.inFlightDescriptor else none
  | _ => none

/-- The descriptor of the sequence that `runToIdle n` runs to its end. -/
def retiredDescriptor : Nat → State → Option Descriptor
  | 0, _ => none
  | n + 1, s =>
    match cycle s with
    | .next t =>
      match t.cpu.control with
      | .idle => s.cpu.inFlightDescriptor
      | .busy _ => retiredDescriptor n t
    | _ => none

/-- `performNextInstruction()` whole: the state it leaves, and it "returns the retired operation's descriptor"
(10_state.md R43). -/
def performNext (s : State) : Host.Outcome (State × Option Descriptor) Fault Refusal :=
  match performNextInstruction s with
  | .next t => .next (t, retiredDescriptor 7 s)
  | .fault f => .fault f
  | .refused r => .refused r

/-- `illegal` with `illegal_opcode` (10_state.md R43). -/
def State.illegal (s : State) : Option Byte := s.cpu.fault

end Sys2Proof.Machine
end

