-- ==== Sys2Proof/Machine/Dispatch.lean ====
section
/-! DEFINITION. One arm per instruction: its meaning. -/

namespace Sys2Proof.Machine

def exec (i : Instr) (s : State) : Host.Outcome State Fault Refusal :=
  match i with
  -- loads, stores, register transfers
  | .ldaImm d => Sys2Proof.Machine.execLdaImm d s
  | .ldaZp d => Sys2Proof.Machine.execLdaZp d s
  | .ldaZpx d => Sys2Proof.Machine.execLdaZpx d s
  | .ldaAbs w => Sys2Proof.Machine.execLdaAbs w s
  | .ldaAbx w => Sys2Proof.Machine.execLdaAbx w s
  | .ldaAby w => Sys2Proof.Machine.execLdaAby w s
  | .ldaIzx d => Sys2Proof.Machine.execLdaIzx d s
  | .ldaIzy d => Sys2Proof.Machine.execLdaIzy d s
  | .ldxImm d => Sys2Proof.Machine.execLdxImm d s
  | .ldxZp d => Sys2Proof.Machine.execLdxZp d s
  | .ldxZpy d => Sys2Proof.Machine.execLdxZpy d s
  | .ldxAbs w => Sys2Proof.Machine.execLdxAbs w s
  | .ldxAby w => Sys2Proof.Machine.execLdxAby w s
  | .ldyImm d => Sys2Proof.Machine.execLdyImm d s
  | .ldyZp d => Sys2Proof.Machine.execLdyZp d s
  | .ldyZpx d => Sys2Proof.Machine.execLdyZpx d s
  | .ldyAbs w => Sys2Proof.Machine.execLdyAbs w s
  | .ldyAbx w => Sys2Proof.Machine.execLdyAbx w s
  | .staZp d => Sys2Proof.Machine.execStaZp d s
  | .staZpx d => Sys2Proof.Machine.execStaZpx d s
  | .staAbs w => Sys2Proof.Machine.execStaAbs w s
  | .staAbx w => Sys2Proof.Machine.execStaAbx w s
  | .staAby w => Sys2Proof.Machine.execStaAby w s
  | .staIzx d => Sys2Proof.Machine.execStaIzx d s
  | .staIzy d => Sys2Proof.Machine.execStaIzy d s
  | .stxZp d => Sys2Proof.Machine.execStxZp d s
  | .stxZpy d => Sys2Proof.Machine.execStxZpy d s
  | .stxAbs w => Sys2Proof.Machine.execStxAbs w s
  | .styZp d => Sys2Proof.Machine.execStyZp d s
  | .styZpx d => Sys2Proof.Machine.execStyZpx d s
  | .styAbs w => Sys2Proof.Machine.execStyAbs w s
  | .tax => Sys2Proof.Machine.execTax s
  | .tay => Sys2Proof.Machine.execTay s
  | .txa => Sys2Proof.Machine.execTxa s
  | .tya => Sys2Proof.Machine.execTya s
  | .tsx => Sys2Proof.Machine.execTsx s
  | .txs => Sys2Proof.Machine.execTxs s
  -- add, subtract, logic, compare, bit test
  | .adcImm d => Sys2Proof.Machine.execAdcImm d s
  | .adcZp d => Sys2Proof.Machine.execAdcZp d s
  | .adcZpx d => Sys2Proof.Machine.execAdcZpx d s
  | .adcAbs w => Sys2Proof.Machine.execAdcAbs w s
  | .adcAbx w => Sys2Proof.Machine.execAdcAbx w s
  | .adcAby w => Sys2Proof.Machine.execAdcAby w s
  | .adcIzx d => Sys2Proof.Machine.execAdcIzx d s
  | .adcIzy d => Sys2Proof.Machine.execAdcIzy d s
  | .sbcImm d => Sys2Proof.Machine.execSbcImm d s
  | .sbcZp d => Sys2Proof.Machine.execSbcZp d s
  | .sbcZpx d => Sys2Proof.Machine.execSbcZpx d s
  | .sbcAbs w => Sys2Proof.Machine.execSbcAbs w s
  | .sbcAbx w => Sys2Proof.Machine.execSbcAbx w s
  | .sbcAby w => Sys2Proof.Machine.execSbcAby w s
  | .sbcIzx d => Sys2Proof.Machine.execSbcIzx d s
  | .sbcIzy d => Sys2Proof.Machine.execSbcIzy d s
  | .andImm d => Sys2Proof.Machine.execAndImm d s
  | .andZp d => Sys2Proof.Machine.execAndZp d s
  | .andZpx d => Sys2Proof.Machine.execAndZpx d s
  | .andAbs w => Sys2Proof.Machine.execAndAbs w s
  | .andAbx w => Sys2Proof.Machine.execAndAbx w s
  | .andAby w => Sys2Proof.Machine.execAndAby w s
  | .andIzx d => Sys2Proof.Machine.execAndIzx d s
  | .andIzy d => Sys2Proof.Machine.execAndIzy d s
  | .oraImm d => Sys2Proof.Machine.execOraImm d s
  | .oraZp d => Sys2Proof.Machine.execOraZp d s
  | .oraZpx d => Sys2Proof.Machine.execOraZpx d s
  | .oraAbs w => Sys2Proof.Machine.execOraAbs w s
  | .oraAbx w => Sys2Proof.Machine.execOraAbx w s
  | .oraAby w => Sys2Proof.Machine.execOraAby w s
  | .oraIzx d => Sys2Proof.Machine.execOraIzx d s
  | .oraIzy d => Sys2Proof.Machine.execOraIzy d s
  | .eorImm d => Sys2Proof.Machine.execEorImm d s
  | .eorZp d => Sys2Proof.Machine.execEorZp d s
  | .eorZpx d => Sys2Proof.Machine.execEorZpx d s
  | .eorAbs w => Sys2Proof.Machine.execEorAbs w s
  | .eorAbx w => Sys2Proof.Machine.execEorAbx w s
  | .eorAby w => Sys2Proof.Machine.execEorAby w s
  | .eorIzx d => Sys2Proof.Machine.execEorIzx d s
  | .eorIzy d => Sys2Proof.Machine.execEorIzy d s
  | .cmpImm d => Sys2Proof.Machine.execCmpImm d s
  | .cmpZp d => Sys2Proof.Machine.execCmpZp d s
  | .cmpZpx d => Sys2Proof.Machine.execCmpZpx d s
  | .cmpAbs w => Sys2Proof.Machine.execCmpAbs w s
  | .cmpAbx w => Sys2Proof.Machine.execCmpAbx w s
  | .cmpAby w => Sys2Proof.Machine.execCmpAby w s
  | .cmpIzx d => Sys2Proof.Machine.execCmpIzx d s
  | .cmpIzy d => Sys2Proof.Machine.execCmpIzy d s
  | .cpxImm d => Sys2Proof.Machine.execCpxImm d s
  | .cpxZp d => Sys2Proof.Machine.execCpxZp d s
  | .cpxAbs w => Sys2Proof.Machine.execCpxAbs w s
  | .cpyImm d => Sys2Proof.Machine.execCpyImm d s
  | .cpyZp d => Sys2Proof.Machine.execCpyZp d s
  | .cpyAbs w => Sys2Proof.Machine.execCpyAbs w s
  | .bitZp d => Sys2Proof.Machine.execBitZp d s
  | .bitAbs w => Sys2Proof.Machine.execBitAbs w s
  -- shifts, rotates, increments, decrements
  | .aslAcc => Sys2Proof.Machine.execAslAcc s
  | .aslZp d => Sys2Proof.Machine.execAslZp d s
  | .aslZpx d => Sys2Proof.Machine.execAslZpx d s
  | .aslAbs w => Sys2Proof.Machine.execAslAbs w s
  | .aslAbx w => Sys2Proof.Machine.execAslAbx w s
  | .lsrAcc => Sys2Proof.Machine.execLsrAcc s
  | .lsrZp d => Sys2Proof.Machine.execLsrZp d s
  | .lsrZpx d => Sys2Proof.Machine.execLsrZpx d s
  | .lsrAbs w => Sys2Proof.Machine.execLsrAbs w s
  | .lsrAbx w => Sys2Proof.Machine.execLsrAbx w s
  | .rolAcc => Sys2Proof.Machine.execRolAcc s
  | .rolZp d => Sys2Proof.Machine.execRolZp d s
  | .rolZpx d => Sys2Proof.Machine.execRolZpx d s
  | .rolAbs w => Sys2Proof.Machine.execRolAbs w s
  | .rolAbx w => Sys2Proof.Machine.execRolAbx w s
  | .rorAcc => Sys2Proof.Machine.execRorAcc s
  | .rorZp d => Sys2Proof.Machine.execRorZp d s
  | .rorZpx d => Sys2Proof.Machine.execRorZpx d s
  | .rorAbs w => Sys2Proof.Machine.execRorAbs w s
  | .rorAbx w => Sys2Proof.Machine.execRorAbx w s
  | .incZp d => Sys2Proof.Machine.execIncZp d s
  | .incZpx d => Sys2Proof.Machine.execIncZpx d s
  | .incAbs w => Sys2Proof.Machine.execIncAbs w s
  | .incAbx w => Sys2Proof.Machine.execIncAbx w s
  | .decZp d => Sys2Proof.Machine.execDecZp d s
  | .decZpx d => Sys2Proof.Machine.execDecZpx d s
  | .decAbs w => Sys2Proof.Machine.execDecAbs w s
  | .decAbx w => Sys2Proof.Machine.execDecAbx w s
  | .inx => Sys2Proof.Machine.execInx s
  | .iny => Sys2Proof.Machine.execIny s
  | .dex => Sys2Proof.Machine.execDex s
  | .dey => Sys2Proof.Machine.execDey s
  -- branches, jumps, subroutines
  | .bpl d => Sys2Proof.Machine.execBpl d s
  | .bmi d => Sys2Proof.Machine.execBmi d s
  | .bvc d => Sys2Proof.Machine.execBvc d s
  | .bvs d => Sys2Proof.Machine.execBvs d s
  | .bcc d => Sys2Proof.Machine.execBcc d s
  | .bcs d => Sys2Proof.Machine.execBcs d s
  | .bne d => Sys2Proof.Machine.execBne d s
  | .beq d => Sys2Proof.Machine.execBeq d s
  | .jmpAbs w => Sys2Proof.Machine.execJmpAbs w s
  | .jmpInd w => Sys2Proof.Machine.execJmpInd w s
  | .jsr w => Sys2Proof.Machine.execJsr w s
  | .rts => Sys2Proof.Machine.execRts s
  -- stack, flag and system instructions
  | .pha => Sys2Proof.Machine.execPha s
  | .php => Sys2Proof.Machine.execPhp s
  | .pla => Sys2Proof.Machine.execPla s
  | .plp => Sys2Proof.Machine.execPlp s
  | .clc => Sys2Proof.Machine.execClc s
  | .sec => Sys2Proof.Machine.execSec s
  | .cli => Sys2Proof.Machine.execCli s
  | .sei => Sys2Proof.Machine.execSei s
  | .cld => Sys2Proof.Machine.execCld s
  | .sed => Sys2Proof.Machine.execSed s
  | .clv => Sys2Proof.Machine.execClv s
  | .nop => Sys2Proof.Machine.execNop s
  | .brk => Sys2Proof.Machine.execBrk s
  | .rti => Sys2Proof.Machine.execRti s

end Sys2Proof.Machine
end

