-- ==== Sys2Proof/Machine/Run.lean ====
section
/-! DEFINITION. What one step does: one instruction, or one interrupt sequence, from idle to idle (10_state.md R43;
40_addressing_and_cycles.md R120; log 3). -/

namespace Sys2Proof.Machine

/-- One call of `performNextInstruction()`. A core that its host left inside a sequence finishes it cycle by
cycle; from idle the interrupt check comes first, then the fetch, then the meaning. -/
def stepOnce (s : State) : Outcome :=
  match s.cpu.fault with
  | some b => .fault (.illegalOpcode b s)
  | none =>
    match s.cpu.control with
    | .busy _ => performNextInstruction s
    | .idle =>
      match s.cpu.selected with
      | some q => .next (s.afterCheck.runSequence q)
      | none =>
        match s.afterCheck.fetchInstr with
        | .illegal b t => .fault (.illegalOpcode b t)
        | .ready i t => exec i t

/-- The instruction of `nbits` bits `w` placed where the next step fetches (log 3). -/
def State.placeWord (nbits w : Nat) (s : State) : State :=
  s.placeInstruction (bytesOfNat 3 (w % 2 ^ nbits))

end Sys2Proof.Machine
end

