-- ==== Sys2Proof/Safety.lean ====
section
/-! DEFINITION. The terms claims are stated in: what a state ready to run is, the invariants, what an
instruction reads and stores, how many cycles it takes (40_addressing_and_cycles.md R150, R151). -/

namespace Sys2Proof

open Sys2Proof.Machine

/-! ## What an instruction works on -/

/-- The memory operand of an instruction of the read, write or modify class; none for the others. -/
def Instr.mem : Instr → Option Mem
  | .ldaZp d => some (.zp d)
  | .ldaZpx d => some (.zpx d)
  | .ldaAbs w => some (.abs w)
  | .ldaAbx w => some (.abx w)
  | .ldaAby w => some (.aby w)
  | .ldaIzx d => some (.izx d)
  | .ldaIzy d => some (.izy d)
  | .ldxZp d => some (.zp d)
  | .ldxZpy d => some (.zpy d)
  | .ldxAbs w => some (.abs w)
  | .ldxAby w => some (.aby w)
  | .ldyZp d => some (.zp d)
  | .ldyZpx d => some (.zpx d)
  | .ldyAbs w => some (.abs w)
  | .ldyAbx w => some (.abx w)
  | .staZp d => some (.zp d)
  | .staZpx d => some (.zpx d)
  | .staAbs w => some (.abs w)
  | .staAbx w => some (.abx w)
  | .staAby w => some (.aby w)
  | .staIzx d => some (.izx d)
  | .staIzy d => some (.izy d)
  | .stxZp d => some (.zp d)
  | .stxZpy d => some (.zpy d)
  | .stxAbs w => some (.abs w)
  | .styZp d => some (.zp d)
  | .styZpx d => some (.zpx d)
  | .styAbs w => some (.abs w)
  | .adcZp d => some (.zp d)
  | .adcZpx d => some (.zpx d)
  | .adcAbs w => some (.abs w)
  | .adcAbx w => some (.abx w)
  | .adcAby w => some (.aby w)
  | .adcIzx d => some (.izx d)
  | .adcIzy d => some (.izy d)
  | .sbcZp d => some (.zp d)
  | .sbcZpx d => some (.zpx d)
  | .sbcAbs w => some (.abs w)
  | .sbcAbx w => some (.abx w)
  | .sbcAby w => some (.aby w)
  | .sbcIzx d => some (.izx d)
  | .sbcIzy d => some (.izy d)
  | .andZp d => some (.zp d)
  | .andZpx d => some (.zpx d)
  | .andAbs w => some (.abs w)
  | .andAbx w => some (.abx w)
  | .andAby w => some (.aby w)
  | .andIzx d => some (.izx d)
  | .andIzy d => some (.izy d)
  | .oraZp d => some (.zp d)
  | .oraZpx d => some (.zpx d)
  | .oraAbs w => some (.abs w)
  | .oraAbx w => some (.abx w)
  | .oraAby w => some (.aby w)
  | .oraIzx d => some (.izx d)
  | .oraIzy d => some (.izy d)
  | .eorZp d => some (.zp d)
  | .eorZpx d => some (.zpx d)
  | .eorAbs w => some (.abs w)
  | .eorAbx w => some (.abx w)
  | .eorAby w => some (.aby w)
  | .eorIzx d => some (.izx d)
  | .eorIzy d => some (.izy d)
  | .cmpZp d => some (.zp d)
  | .cmpZpx d => some (.zpx d)
  | .cmpAbs w => some (.abs w)
  | .cmpAbx w => some (.abx w)
  | .cmpAby w => some (.aby w)
  | .cmpIzx d => some (.izx d)
  | .cmpIzy d => some (.izy d)
  | .cpxZp d => some (.zp d)
  | .cpxAbs w => some (.abs w)
  | .cpyZp d => some (.zp d)
  | .cpyAbs w => some (.abs w)
  | .bitZp d => some (.zp d)
  | .bitAbs w => some (.abs w)
  | .aslZp d => some (.zp d)
  | .aslZpx d => some (.zpx d)
  | .aslAbs w => some (.abs w)
  | .aslAbx w => some (.abx w)
  | .lsrZp d => some (.zp d)
  | .lsrZpx d => some (.zpx d)
  | .lsrAbs w => some (.abs w)
  | .lsrAbx w => some (.abx w)
  | .rolZp d => some (.zp d)
  | .rolZpx d => some (.zpx d)
  | .rolAbs w => some (.abs w)
  | .rolAbx w => some (.abx w)
  | .rorZp d => some (.zp d)
  | .rorZpx d => some (.zpx d)
  | .rorAbs w => some (.abs w)
  | .rorAbx w => some (.abx w)
  | .incZp d => some (.zp d)
  | .incZpx d => some (.zpx d)
  | .incAbs w => some (.abs w)
  | .incAbx w => some (.abx w)
  | .decZp d => some (.zp d)
  | .decZpx d => some (.zpx d)
  | .decAbs w => some (.abs w)
  | .decAbx w => some (.abx w)
  | _ => none

/-- The immediate operand of an instruction. -/
def Instr.immediate : Instr → Option Byte
  | .ldaImm d => some d
  | .ldxImm d => some d
  | .ldyImm d => some d
  | .adcImm d => some d
  | .sbcImm d => some d
  | .andImm d => some d
  | .oraImm d => some d
  | .eorImm d => some d
  | .cmpImm d => some d
  | .cpxImm d => some d
  | .cpyImm d => some d
  | _ => none

/-- The operand byte `m` of a read-class instruction: the immediate byte, or the byte the bus gives at the
effective address. -/
def Instr.operandByte (i : Instr) (s : State) : Option Byte :=
  match i.immediate, i.mem with
  | some d, _ => some d
  | none, some m => some (s.operand m)
  | none, none => none

/-! ## Cycle counts (40_addressing_and_cycles.md R150, R151) -/

/-- The base count of the table of R150, by addressing mode and access class. -/
def Instr.baseCycles (i : Instr) : Nat :=
  match i.mnemonic.operation, i.mode with
  | .modify _ _, .acc => 2
  | .modify _ _, .zp => 5
  | .modify _ _, .zpx => 6
  | .modify _ _, .abs => 6
  | .modify _ _, .abx => 7
  | .write _, .abx => 5
  | .write _, .aby => 5
  | .write _, .izy => 6
  | .jump, .abs => 3
  | .jump, .ind => 5
  | .call, _ => 6
  | .subroutineReturn, _ => 6
  | .interruptReturn, _ => 6
  | .softwareInterrupt, _ => 7
  | .push _, _ => 3
  | .pull _, _ => 4
  | _, .imm => 2
  | _, .zp => 3
  | _, .zpx => 4
  | _, .zpy => 4
  | _, .abs => 4
  | _, .abx => 4
  | _, .aby => 4
  | _, .izx => 6
  | _, .izy => 5
  | _, _ => 2

/-- The extra cycles: one for a read across a page; for a taken branch one, and one more across a page.
`s` is the state after the instruction's bytes have been fetched. -/
def Instr.extraCycles (i : Instr) (s : State) : Nat :=
  match i.mnemonic.operation, i.mem with
  | .read _, some m => if s.crosses m then 1 else 0
  | .branch cond, _ =>
    if cond s.cpu.p then
      if branchCrosses s.cpu.pc (BitVec.ofNat 8 i.operand) then 2 else 1
    else 0
  | _, _ => 0

end Sys2Proof

namespace Sys2Proof.Machine

/-! ## States and their memory -/

/-- The next step fetches an instruction: no fault, idle, no request that the check would select. -/
def State.running (s : State) : Prop :=
  s.cpu.fault = none ∧ s.cpu.control = .idle ∧ s.cpu.selected = none

/-- Every address reads as before (through the debug read of one byte). -/
def State.memoryKept (s t : State) : Prop := ∀ a, t.con.peek a = s.con.peek a

/-- A store to `a` may switch banks: `a` is a register of an MMC1. -/
def Console.bankRegister (a : Addr) (c : Console) : Prop := c.cart.kind = .mmc1 ∧ 0x8000 ≤ a.toNat

/-- The one stored byte that has changed is the one behind `a`, now `v` (20_memory.md R82): no cell but the one
`a` stores to has changed, and, unless the store went to a bank register, every address that leads
elsewhere reads as before and every address that leads to that cell, `a` or a mirror of it, reads `v`. -/
def State.storedOnly (a : Addr) (v : Byte) (s t : State) : Prop :=
  (∀ cell, t.con.byteOf cell = if s.con.storeCell a = some cell then v else s.con.byteOf cell) ∧
  (¬ s.con.bankRegister a →
    ∀ b, t.con.peek b =
      if s.con.storeCell a ≠ none ∧ s.con.cellOf b = s.con.storeCell a then some v else s.con.peek b)

/-- The CPU RAM byte behind a stack pointer. -/
def State.stackByte (sp : Byte) (s : State) : Byte := s.con.byteOf (.ram (stackAddr sp).toNat)

/-- Bytes pushed from `sp` down: the first at `sp`, the next below it, with wrap in the stack page; every
other stored byte and the address map are as before. -/
def State.pushedOnly (sp : Byte) (vs : List Byte) (s t : State) : Prop :=
  (∀ k, (hk : k < vs.length) → t.stackByte (sp - BitVec.ofNat 8 k) = vs[k]) ∧
  (∀ cell, (∀ k, k < vs.length → cell ≠ .ram (stackAddr (sp - BitVec.ofNat 8 k)).toNat) →
    t.con.byteOf cell = s.con.byteOf cell) ∧
  (∀ a, t.con.cellOf a = s.con.cellOf a)

/-! ## Invariants -/

/-- The cartridge has PRG-ROM and CHR, and its memories are canonical and inside their sizes (60_exceptions.md
R397). -/
def Cart.wf (c : Cart) : Bool :=
  decide (0 < c.prgBanks) && c.prgRom.wf && c.prgRom.below (c.prgBanks * 0x4000) &&
  c.prgRam.wf && c.prgRam.below 8192 &&
  decide (0 < c.chrBanks) && c.chr.wf && c.chr.below (c.chrBanks * 0x2000)

/-- The PPU's memories are canonical and inside their sizes (10_state.md R47; 60_exceptions.md R385, R386). -/
def Ppu.wf (p : Ppu) : Bool :=
  p.oam.wf && p.oam.below 256 && p.secondaryOam.wf && p.secondaryOam.below 32 &&
  p.palette.wf && p.palette.below 32 && p.vram.wf && p.vram.below 4096 &&
  p.frame.wf && p.frame.below 61440 && p.lastFrame.wf && p.lastFrame.below 61440

/-- Every memory behind the bus is canonical and inside its size. -/
def Console.wf (c : Console) : Bool := c.ram.wf && c.ram.below 2048 && c.cart.wf && c.ppu.wf

/-- The control state has a row: idle, or a row of its sequence's table (40_addressing_and_cycles.md R120; log 10). -/
def State.controlOk (s : State) : Bool :=
  match s.cpu.control with
  | .idle => true
  | .busy k => decide (2 ≤ k.t) && decide (k.t ≤ 7) && (k.row s.params s.cpu).isSome

/-- The invariant of the machine. -/
def State.Inv (s : State) : Prop := s.con.wf = true ∧ s.controlOk = true

end Sys2Proof.Machine
end

