-- ==== Sys2Proof/Certificates/Slice0/Obligations.lean ====
section
/-! DEFINITION. The statements for the provers. In a statement about `exec i s`, `s` is the state after the
instruction's bytes have been fetched, so `s.cpu.pc` is the address of the next instruction (for JSR, of its
third byte; log 8, log 24). The statements hold for every state, in or out of reach of a run, unless an
invariant stands as a premise. -/

section Statements

open Sys2Proof Sys2Proof.Machine

/-! ## Power-on, invariants -/

/-- 70_reset_and_hazards.md R430 (values decided by D8; log 2): the core at power-on, whatever the cartridge
and the parameters. -/
def Obligations.PowerOnCoreState : Prop :=
  ∀ (cart : Cart) (params : Params),
    let c := (State.powerOn cart params).cpu
    c.a = 0 ∧ c.x = 0 ∧ c.y = 0 ∧ c.sp = 0 ∧ c.pc = 0 ∧
    c.p.c = false ∧ c.p.z = false ∧ c.p.d = false ∧ c.p.v = false ∧ c.p.n = false ∧ c.p.i = true ∧
    c.resetReq = true ∧ c.nmiReq = false ∧ c.irqReq = false ∧
    c.control = .idle ∧ c.fault = none

/-- 70_reset_and_hazards.md R431: the first step of a machine at power-on is the 7-cycle RESET sequence: it
leaves `SP = 0xFD`, `I = 1`, PC from the vector at 0xFFFC, everything else of the core as it was but the
consumed request, and no stored byte changed. -/
def Obligations.FirstStepIsTheResetSequence : Prop :=
  ∀ (cart : Cart) (params : Params), ∃ t,
    step (State.powerOn cart params) = .next t ∧
    (∃ l h, cart.cellOf 0xFFFC = some l ∧ cart.cellOf 0xFFFD = some h ∧
      t.cpu = { (State.powerOn cart params).cpu with
        sp := 0xFD
        resetReq := false
        pc := word ((State.powerOn cart params).con.byteOf h) ((State.powerOn cart params).con.byteOf l) }) ∧
    State.memoryKept (State.powerOn cart params) t ∧
    t.con.clock = 7

/-- The invariant (memories canonical and inside their sizes, control state on a row) holds right after
reset. -/
def Obligations.InvariantAtReset : Prop := State.Inv State.reset

/-- Every step keeps the invariant, from every state that has it. -/
def Obligations.StepKeepsTheInvariant : Prop :=
  ∀ s t : State, s.Inv → step s = .next t → t.Inv

/-- Every cycle keeps the invariant, and from a state that has it no cycle finds its control state without
a row (log 10). -/
def Obligations.CycleKeepsTheInvariant : Prop :=
  ∀ s : State, s.Inv → cycle s ≠ .fault .noRow ∧ ∀ t, cycle s = .next t → t.Inv

/-! ## Encoding -/

/-- 30_encoding.md R90, R96, R98: decoding an encoded instruction, with anything after it, gives it back. -/
def Obligations.DecodeOfEncode : Prop :=
  ∀ (i : Instr) (rest : List Byte), i.wellFormed = true ∧ decode (encode i ++ rest) = .ok (i, rest)

/-- 30_encoding.md R90, R101: what was decoded is the encoding of the instruction, and nothing was skipped. -/
def Obligations.EncodeOfDecode : Prop :=
  ∀ (bs rest : List Byte) (i : Instr), decode bs = .ok (i, rest) →
    bs = encode i ++ rest ∧ (encode i).length = i.mode.length

/-- 30_encoding.md R99: the decoder rejects exactly the 105 bytes of the list, by name, whatever follows. -/
def Obligations.IllegalOpcodeBytes : Prop :=
  ∀ (b : Byte) (rest : List Byte),
    decode (b :: rest) = .error (.illegalOpcode b) ↔
    b ∈ ([[0x02, 0x03, 0x04, 0x07, 0x0B, 0x0C, 0x0F, 0x12, 0x13, 0x14, 0x17, 0x1A, 0x1B, 0x1C, 0x1F],
      [0x22, 0x23, 0x27, 0x2B, 0x2F, 0x32, 0x33, 0x34, 0x37, 0x3A, 0x3B, 0x3C, 0x3F, 0x42, 0x43, 0x44],
      [0x47, 0x4B, 0x4F, 0x52, 0x53, 0x54, 0x57, 0x5A, 0x5B, 0x5C, 0x5F, 0x62, 0x63, 0x64, 0x67, 0x6B],
      [0x6F, 0x72, 0x73, 0x74, 0x77, 0x7A, 0x7B, 0x7C, 0x7F, 0x80, 0x82, 0x83, 0x87, 0x89, 0x8B, 0x8F],
      [0x92, 0x93, 0x97, 0x9B, 0x9C, 0x9E, 0x9F, 0xA3, 0xA7, 0xAB, 0xAF, 0xB2, 0xB3, 0xB7, 0xBB, 0xBF],
      [0xC2, 0xC3, 0xC7, 0xCB, 0xCF, 0xD2, 0xD3, 0xD4, 0xD7, 0xDA, 0xDB, 0xDC, 0xDF, 0xE2, 0xE3, 0xE7],
      [0xEB, 0xEF, 0xF2, 0xF3, 0xF4, 0xF7, 0xFA, 0xFB, 0xFC, 0xFF]] : List (List Byte)).flatten

/-- Words written out from 30_encoding.md R90 and R98, one or two of each family. -/
def Obligations.DecodedWords : Prop :=
  decodeTableWord 16 0b0000010110101001 = some (.ldaImm 0x05) ∧
  decodeTableWord 24 0b000000101111000010111101 = some (.ldaAbx 0x02F0) ∧
  decodeTableWord 16 0b1111000010010110 = some (.stxZpy 0xF0) ∧
  decodeTableWord 16 0b0101000001101001 = some (.adcImm 0x50) ∧
  decodeTableWord 24 0b000000110000000000101100 = some (.bitAbs 0x0300) ∧
  decodeTableWord 8 0b00001010 = some .aslAcc ∧
  decodeTableWord 24 0b000000101111111111011110 = some (.decAbx 0x02FF) ∧
  decodeTableWord 16 0b0111111110010000 = some (.bcc 0x7F) ∧
  decodeTableWord 24 0b000000110000000000100000 = some (.jsr 0x0300) ∧
  decodeTableWord 24 0b000001101111111101101100 = some (.jmpInd 0x06FF) ∧
  decodeTableWord 8 0b00000000 = some .brk ∧
  decodeTableWord 8 0b00101000 = some .plp

/-! ## The step -/

/-- When the bytes stored at PC decode to `i`, a step is `exec i` at the state after `i.fetchedBytes` of them
have been fetched: PC past them, one cycle each, no register but PC changed, every address reading as
before (30_encoding.md R90 to R93; 10_state.md R22). -/
def Obligations.StepRunsTheDecodedInstruction : Prop :=
  ∀ (s : State) (b0 b1 b2 : Byte) (i : Instr) (rest : List Byte),
    s.running →
    s.con.peek s.cpu.pc = some b0 → s.con.peek (s.cpu.pc + 1) = some b1 →
    s.con.peek (s.cpu.pc + 2) = some b2 →
    decode [b0, b1, b2] = .ok (i, rest) →
    step s = exec i (s.afterCheck.afterFetch i.fetchedBytes) ∧
    (s.afterCheck.afterFetch i.fetchedBytes).cpu =
      { s.afterCheck.cpu with pc := s.cpu.pc + BitVec.ofNat 16 i.fetchedBytes } ∧
    State.memoryKept s (s.afterCheck.afterFetch i.fetchedBytes) ∧
    (s.afterCheck.afterFetch i.fetchedBytes).con.clock = s.con.clock + i.fetchedBytes

/-- The same wherever the bytes come from, a device port included: the operand bytes are those the bus gives
one by one in the cycles after the opcode's (20_memory.md R78). -/
def Obligations.StepRunsTheFetchedInstruction : Prop :=
  ∀ (s : State), s.running →
    (∀ i, opcodeForm (s.afterCheck.fetchedByte 0) = some (.one i) →
      step s = exec i (s.afterCheck.afterFetch 1)) ∧
    (∀ f, opcodeForm (s.afterCheck.fetchedByte 0) = some (.two f) →
      step s = exec (f (s.afterCheck.fetchedByte 1)) (s.afterCheck.afterFetch 2)) ∧
    (∀ f, opcodeForm (s.afterCheck.fetchedByte 0) = some (.three f) →
      step s = exec (f (word (s.afterCheck.fetchedByte 2) (s.afterCheck.fetchedByte 1)))
        (s.afterCheck.afterFetch 3)) ∧
    (∀ f h, opcodeForm (s.afterCheck.fetchedByte 0) = some (.call f) →
      step s = exec (f (word h (s.afterCheck.fetchedByte 1))) (s.afterCheck.afterFetch 2))

/-- 60_exceptions.md R331: an opcode byte without a table entry sets the fault, drives `illegal` with the byte, and
stops the step, the cycle and `performNextInstruction` with an error that carries the byte. -/
def Obligations.IllegalOpcodeFault : Prop :=
  ∀ (s : State) (b : Byte), s.running → b = s.afterCheck.fetchedByte 0 → optab b = none →
    (∀ v, s.con.peek s.cpu.pc = some v → b = v) ∧
    ∃ t, step s = .fault (.illegalOpcode b t) ∧ cycle s = .fault (.illegalOpcode b t) ∧
      performNextInstruction s = .fault (.illegalOpcode b t) ∧
      t.cpu.fault = some b ∧ t.illegal = some b

/-- 60_exceptions.md R332 (D19), R333, R334: at the fault PC is one further, nothing else of the core has changed,
every address reads as before, one cycle has passed; and with the fault set a step and a cycle give the same
error again and leave the state as it is, whatever is raised. That the devices too stand still then is the model's
choice (log 6). -/
def Obligations.FaultStateIsKept : Prop :=
  (∀ (s t : State) (b : Byte), s.running → step s = .fault (.illegalOpcode b t) →
    b = s.afterCheck.fetchedByte 0 →
    optab b = none →
      t.cpu = { s.afterCheck.cpu with pc := s.cpu.pc + 1, fault := some b } ∧
      State.memoryKept s t ∧ t.con.clock = s.con.clock + 1) ∧
  (∀ (s : State) (b : Byte), s.cpu.fault = some b →
    step s = .fault (.illegalOpcode b s) ∧ cycle s = .fault (.illegalOpcode b s) ∧
    step s.raiseReset = .fault (.illegalOpcode b s.raiseReset) ∧
    s.raiseReset.cpu.fault = some b ∧ s.bus = none ∧ s.illegal = some b)

/-- 40_addressing_and_cycles.md R120, R121: clocking the core cycle by cycle through the sequence tables until it is
idle again is one step, for every instruction, every hardware sequence and the fault. -/
def Obligations.CyclesRefineTheStep : Prop :=
  ∀ s : State, s.cpu.control = .idle → performNextInstruction s = step s

/-- 40_addressing_and_cycles.md R153, 60_exceptions.md R340: inside a sequence a cycle does not look at the request flags: a
request raised before it is simply still there after it. -/
def Obligations.RequestsWaitInsideASequence : Prop :=
  ∀ (s t : State) (k : InFlight), s.cpu.control = .busy k → cycle s = .next t →
    cycle s.raiseReset = .next t.raiseReset ∧ cycle s.raiseNmi = .next t.raiseNmi ∧
    cycle s.raiseIrq = .next t.raiseIrq ∧
    t.cpu.resetReq = s.cpu.resetReq ∧ t.cpu.nmiReq = s.cpu.nmiReq ∧ t.cpu.irqReq = s.cpu.irqReq

/-! ## Addressing and cycle counts -/

/-- 40_addressing_and_cycles.md R138: the effective address of each mode; and the operand byte of a read-class instruction is
the byte stored there, whatever the cycles before the read did on the bus. -/
def Obligations.EffectiveAddressAndOperand : Prop :=
  ∀ (s : State) (d : Byte) (w : Addr),
    s.ea (.zp d) = word 0 d ∧
    s.ea (.zpx d) = word 0 (d + s.cpu.x) ∧
    s.ea (.zpy d) = word 0 (d + s.cpu.y) ∧
    s.ea (.abs w) = w ∧
    s.ea (.abx w) = w + zext16 s.cpu.x ∧
    s.ea (.aby w) = w + zext16 s.cpu.y ∧
    (∀ l h, s.con.peek (word 0 (d + s.cpu.x)) = some l → s.con.peek (word 0 (d + s.cpu.x + 1)) = some h →
      s.ea (.izx d) = word h l) ∧
    (∀ l h, s.con.peek (word 0 d) = some l → s.con.peek (word 0 (d + 1)) = some h →
      s.ea (.izy d) = word h l + zext16 s.cpu.y) ∧
    (∀ (m : Mem) (v : Byte), s.con.peek (s.ea m) = some v → s.operand m = v)

/-- 40_addressing_and_cycles.md R134: the page is crossed iff the low byte of the base plus the index exceeds 0xFF, and then
the high byte is the next one. -/
def Obligations.PageCrossTest : Prop :=
  ∀ (s : State) (m : Mem),
    (s.crosses m = true ↔ 0xFF < (lo (s.base m)).toNat + (s.index m).toNat) ∧
    (s.crosses m = true → hi (s.ea m) = hi (s.base m) + 1) ∧
    (s.crosses m = false → s.uncorrected m = s.ea m) ∧
    (s.crosses m = true → s.uncorrected m = s.ea m - 0x100)

/-- 40_addressing_and_cycles.md R150, R151: every instruction completes from every state, in the table's number of cycles
(the base count, the page-cross penalty of reads, the branch penalties), whatever `DUMMY_ACCESS` is. -/
def Obligations.CycleCounts : Prop :=
  ∀ (i : Instr) (s : State), ∃ t, exec i s = .next t ∧
    t.con.clock + i.fetchedBytes = s.con.clock + i.baseCycles + i.extraCycles s

/-! ## Status byte and arithmetic -/

/-- 10_state.md R23, R30, R31, R33: where the flags stand in the status byte; bits 5 and 4 are the two pushed
bits and are ignored on pull. -/
def Obligations.StatusByteLayout : Prop :=
  ∀ (p : Status) (b54 : BitVec 2) (v : Byte),
    ((p.pack b54).getLsbD 0 = p.c ∧ (p.pack b54).getLsbD 1 = p.z ∧ (p.pack b54).getLsbD 2 = p.i ∧
      (p.pack b54).getLsbD 3 = p.d ∧ (p.pack b54).getLsbD 4 = b54.getLsbD 0 ∧
      (p.pack b54).getLsbD 5 = b54.getLsbD 1 ∧ (p.pack b54).getLsbD 6 = p.v ∧
      (p.pack b54).getLsbD 7 = p.n) ∧
    Status.unpack (p.pack b54) = p ∧
    Status.unpack (v ||| 0x30) = Status.unpack v ∧ Status.unpack (v &&& 0xCF) = Status.unpack v ∧
    (Status.unpack v).pack 0b11 = v ||| 0x30

/-- 42_arithmetic_logic_compare.md R201 (D30): ADC in all its forms, with its cycles. -/
def Obligations.AdcResultAndFlags : Prop :=
  ∀ (i : Instr) (s : State), i.mnemonic = .adc → ∃ m t, i.operandByte s = some m ∧ exec i s = .next t ∧
    t.cpu = { s.cpu with
      a := BitVec.ofNat 8 (s.cpu.a.toNat + m.toNat + s.cpu.p.c.toNat)
      p := { s.cpu.p with
        c := decide (255 < s.cpu.a.toNat + m.toNat + s.cpu.p.c.toNat)
        v := decide (s.cpu.a.toInt + m.toInt + s.cpu.p.c.toNat < -128 ∨
          127 < s.cpu.a.toInt + m.toInt + s.cpu.p.c.toNat)
        z := BitVec.ofNat 8 (s.cpu.a.toNat + m.toNat + s.cpu.p.c.toNat) == 0
        n := (BitVec.ofNat 8 (s.cpu.a.toNat + m.toNat + s.cpu.p.c.toNat)).getLsbD 7 } } ∧
    s.memoryKept t ∧ t.params = s.params ∧
    t.con.clock + i.fetchedBytes = s.con.clock + i.baseCycles + i.extraCycles s

/-- 42_arithmetic_logic_compare.md R202: SBC in all its forms, with its cycles. -/
def Obligations.SbcResultAndFlags : Prop :=
  ∀ (i : Instr) (s : State), i.mnemonic = .sbc → ∃ m t, i.operandByte s = some m ∧ exec i s = .next t ∧
    t.cpu = { s.cpu with
      a := s.cpu.a - m - (if s.cpu.p.c then 0 else 1)
      p := { s.cpu.p with
        c := decide (m.toNat + (if s.cpu.p.c then 0 else 1) ≤ s.cpu.a.toNat)
        v := decide (s.cpu.a.toInt - m.toInt - (if s.cpu.p.c then 0 else 1) < -128 ∨
          127 < s.cpu.a.toInt - m.toInt - (if s.cpu.p.c then 0 else 1))
        z := s.cpu.a - m - (if s.cpu.p.c then 0 else 1) == 0
        n := (s.cpu.a - m - (if s.cpu.p.c then 0 else 1)).getLsbD 7 } } ∧
    s.memoryKept t ∧ t.params = s.params ∧
    t.con.clock + i.fetchedBytes = s.con.clock + i.baseCycles + i.extraCycles s

/-- 42_arithmetic_logic_compare.md R210: the identities of add and subtract, over every input. -/
def Obligations.AddSubtractIdentities : Prop :=
  ∀ (a m : Byte) (p : Status),
    (adcStatus a m p).v = ((a ^^^ adcResult a m p.c) &&& (m ^^^ adcResult a m p.c)).getLsbD 7 ∧
    sbcResult a m p.c = adcResult a (m ^^^ 0xFF) p.c ∧
    sbcStatus a m p = adcStatus a (m ^^^ 0xFF) p ∧
    (p.c = true → sbcResult a m p.c = a - m ∧ ((sbcStatus a m p).c = true ↔ m.toNat ≤ a.toNat)) ∧
    (adcStatus 0x7F 0x00 { p with c := true }).v = true

/-- 42_arithmetic_logic_compare.md R203 to R205: AND, ORA, EOR in all their forms. -/
def Obligations.LogicResultAndFlags : Prop :=
  ∀ (i : Instr) (s : State) (r : Byte → Byte),
    (i.mnemonic = .and ∧ r = (fun m => s.cpu.a &&& m)) ∨ (i.mnemonic = .ora ∧ r = (fun m => s.cpu.a ||| m)) ∨
      (i.mnemonic = .eor ∧ r = (fun m => s.cpu.a ^^^ m)) →
    ∃ m t, i.operandByte s = some m ∧ exec i s = .next t ∧
      t.cpu = { s.cpu with a := r m, p := { s.cpu.p with z := r m == 0, n := (r m).getLsbD 7 } } ∧
      s.memoryKept t ∧ t.params = s.params

/-- 42_arithmetic_logic_compare.md R206 to R208: CMP, CPX, CPY in all their forms. -/
def Obligations.CompareFlags : Prop :=
  ∀ (i : Instr) (s : State) (r : Byte),
    (i.mnemonic = .cmp ∧ r = s.cpu.a) ∨ (i.mnemonic = .cpx ∧ r = s.cpu.x) ∨ (i.mnemonic = .cpy ∧ r = s.cpu.y) →
    ∃ m t, i.operandByte s = some m ∧ exec i s = .next t ∧
      t.cpu = { s.cpu with p := { s.cpu.p with
        c := decide (m.toNat ≤ r.toNat), z := decide (r = m), n := (r - m).getLsbD 7 } } ∧
      s.memoryKept t ∧ t.params = s.params

/-- 42_arithmetic_logic_compare.md R209: BIT in both its forms. -/
def Obligations.BitTestFlags : Prop :=
  ∀ (i : Instr) (s : State), i.mnemonic = .bit → ∃ m t, i.operandByte s = some m ∧ exec i s = .next t ∧
    t.cpu = { s.cpu with p := { s.cpu.p with
      z := decide (s.cpu.a &&& m = 0), n := m.getLsbD 7, v := m.getLsbD 6 } } ∧
    s.memoryKept t ∧ t.params = s.params

/-! ## Loads, stores, transfers -/

/-- 41_load_store_transfer.md R170 to R172: LDA, LDX, LDY in all their forms. -/
def Obligations.LoadResultAndFlags : Prop :=
  ∀ (i : Instr) (s : State) (load : Byte → Cpu),
    (i.mnemonic = .lda ∧ load = (fun m => { s.cpu with a := m })) ∨
      (i.mnemonic = .ldx ∧ load = (fun m => { s.cpu with x := m })) ∨
      (i.mnemonic = .ldy ∧ load = (fun m => { s.cpu with y := m })) →
    ∃ m t, i.operandByte s = some m ∧ exec i s = .next t ∧
      t.cpu = { load m with p := { s.cpu.p with z := m == 0, n := m.getLsbD 7 } } ∧
      s.memoryKept t ∧ t.params = s.params

/-- 41_load_store_transfer.md R173 to R175, 20_memory.md R82: STA, STX, STY in all their forms: the register's byte is stored
at the effective address, and nothing else of memory and nothing of the core changes. -/
def Obligations.StoreWritesTheRegister : Prop :=
  ∀ (i : Instr) (s : State) (v : Byte), s.con.wf = true →
    (i.mnemonic = .sta ∧ v = s.cpu.a) ∨ (i.mnemonic = .stx ∧ v = s.cpu.x) ∨ (i.mnemonic = .sty ∧ v = s.cpu.y) →
    ∃ m t, i.mem = some m ∧ exec i s = .next t ∧ t.cpu = s.cpu ∧
      s.storedOnly (s.ea m) v t ∧ t.params = s.params

/-- 41_load_store_transfer.md R176 to R181: the six transfers; TXS writes no flag. -/
def Obligations.TransferResultAndFlags : Prop :=
  ∀ (s : State) (i : Instr) (c : Cpu) (v : Byte),
    (i = .tax ∧ v = s.cpu.a ∧ c = { s.cpu with x := v }) ∨ (i = .tay ∧ v = s.cpu.a ∧ c = { s.cpu with y := v }) ∨
      (i = .txa ∧ v = s.cpu.x ∧ c = { s.cpu with a := v }) ∨ (i = .tya ∧ v = s.cpu.y ∧ c = { s.cpu with a := v }) ∨
      (i = .tsx ∧ v = s.cpu.sp ∧ c = { s.cpu with x := v }) ∨ (i = .txs ∧ v = s.cpu.x ∧ c = { s.cpu with sp := v }) →
    ∃ t, exec i s = .next t ∧
      t.cpu = (if i = .txs then c else { c with p := { s.cpu.p with z := v == 0, n := v.getLsbD 7 } }) ∧
      s.memoryKept t ∧ t.params = s.params

/-! ## Shifts, increments, decrements -/

/-- 43_shift_rotate_incdec.md R230 to R235: the memory forms of ASL, LSR, ROL, ROR, INC, DEC. `old` is the byte read at
the effective address (the stored one where there is one); the new byte is stored there and nothing else
of memory changes; of the core only the flags the rule names change. That the new byte is stored also where it
goes to the PRG-RAM of an MMC1, in the cycle after the write of the old byte, is the model's choice that the write lock
does not cover that window (log 12). -/
def Obligations.ModifyResultAndFlags : Prop :=
  ∀ (i : Instr) (s : State) (m : Mem) (new : Byte → Byte) (carry : Byte → Bool),
    s.con.wf = true → i.mem = some m →
    (i.mnemonic = .asl ∧ new = (fun v => v + v) ∧ carry = (fun v => v.getLsbD 7)) ∨
      (i.mnemonic = .lsr ∧ new = (fun v => BitVec.ofNat 8 (v.toNat / 2)) ∧ carry = (fun v => v.getLsbD 0)) ∨
      (i.mnemonic = .rol ∧ new = (fun v => v + v + (if s.cpu.p.c then 1 else 0)) ∧
        carry = (fun v => v.getLsbD 7)) ∨
      (i.mnemonic = .ror ∧
        new = (fun v => BitVec.ofNat 8 (v.toNat / 2 + (if s.cpu.p.c then 128 else 0))) ∧
        carry = (fun v => v.getLsbD 0)) ∨
      (i.mnemonic = .inc ∧ new = (fun v => v + 1) ∧ carry = (fun _ => s.cpu.p.c)) ∨
      (i.mnemonic = .dec ∧ new = (fun v => v - 1) ∧ carry = (fun _ => s.cpu.p.c)) →
    ∃ old t, exec i s = .next t ∧ old = s.oldByte m ∧
      (∀ v, s.con.peek (s.ea m) = some v → old = v) ∧
      t.cpu = { s.cpu with p := { s.cpu.p with
        c := carry old, z := new old == 0, n := (new old).getLsbD 7 } } ∧
      s.storedOnly (s.ea m) (new old) t ∧ t.params = s.params

/-- 43_shift_rotate_incdec.md R230 to R233: the accumulator forms. -/
def Obligations.AccumulatorShiftResultAndFlags : Prop :=
  ∀ (i : Instr) (s : State) (r : Byte) (carry : Bool),
    (i = .aslAcc ∧ r = s.cpu.a + s.cpu.a ∧ carry = s.cpu.a.getLsbD 7) ∨
      (i = .lsrAcc ∧ r = BitVec.ofNat 8 (s.cpu.a.toNat / 2) ∧ carry = s.cpu.a.getLsbD 0) ∨
      (i = .rolAcc ∧ r = s.cpu.a + s.cpu.a + (if s.cpu.p.c then 1 else 0) ∧ carry = s.cpu.a.getLsbD 7) ∨
      (i = .rorAcc ∧ r = BitVec.ofNat 8 (s.cpu.a.toNat / 2 + (if s.cpu.p.c then 128 else 0)) ∧
        carry = s.cpu.a.getLsbD 0) →
    ∃ t, exec i s = .next t ∧
      t.cpu = { s.cpu with a := r, p := { s.cpu.p with c := carry, z := r == 0, n := r.getLsbD 7 } } ∧
      s.memoryKept t ∧ t.params = s.params

/-- 43_shift_rotate_incdec.md R236 to R239: INX, INY, DEX, DEY. -/
def Obligations.IndexStepResultAndFlags : Prop :=
  ∀ (s : State) (i : Instr) (c : Cpu) (r : Byte),
    (i = .inx ∧ r = s.cpu.x + 1 ∧ c = { s.cpu with x := r }) ∨ (i = .iny ∧ r = s.cpu.y + 1 ∧ c = { s.cpu with y := r }) ∨
      (i = .dex ∧ r = s.cpu.x - 1 ∧ c = { s.cpu with x := r }) ∨ (i = .dey ∧ r = s.cpu.y - 1 ∧ c = { s.cpu with y := r }) →
    ∃ t, exec i s = .next t ∧
      t.cpu = { c with p := { s.cpu.p with z := r == 0, n := r.getLsbD 7 } } ∧
      s.memoryKept t ∧ t.params = s.params

/-! ## Control transfer -/

/-- 44_branch_jump_subroutine.md R260: the eight conditional branches, with their conditions; `pcn` is `s.cpu.pc`. -/
def Obligations.BranchTargetAndFrame : Prop :=
  ∀ (s : State) (d : Byte) (i : Instr) (cond : Bool),
    (i = .bpl d ∧ cond = !s.cpu.p.n) ∨ (i = .bmi d ∧ cond = s.cpu.p.n) ∨ (i = .bvc d ∧ cond = !s.cpu.p.v) ∨
      (i = .bvs d ∧ cond = s.cpu.p.v) ∨ (i = .bcc d ∧ cond = !s.cpu.p.c) ∨ (i = .bcs d ∧ cond = s.cpu.p.c) ∨
      (i = .bne d ∧ cond = !s.cpu.p.z) ∨ (i = .beq d ∧ cond = s.cpu.p.z) →
    ∃ t, exec i s = .next t ∧
      t.cpu = { s.cpu with pc := if cond then BitVec.ofInt 16 (s.cpu.pc.toNat + d.toInt) else s.cpu.pc } ∧
      s.memoryKept t ∧ t.params = s.params

/-- 44_branch_jump_subroutine.md R269, R270: JMP absolute, and JMP indirect with the pointer's second byte from the same
page. The two bytes are those the bus gives in the two pointer cycles, behind a device port too; where a stored
byte answers they are that byte. -/
def Obligations.JumpTargets : Prop :=
  ∀ (s : State) (w : Addr),
    (∃ t, exec (.jmpAbs w) s = .next t ∧ t.cpu = { s.cpu with pc := w } ∧ t.con = s.con ∧
      t.params = s.params) ∧
    (∃ t, exec (.jmpInd w) s = .next t ∧
      t.cpu = { s.cpu with pc := word ((s.read w).value (word (hi w) (lo w + 1))) (s.value w) } ∧
      (∀ v, s.con.peek w = some v → s.value w = v) ∧
      (∀ v, s.con.peek (word (hi w) (lo w + 1)) = some v →
        (s.read w).value (word (hi w) (lo w + 1)) = v) ∧
      s.memoryKept t ∧ t.params = s.params)

/-- 44_branch_jump_subroutine.md R271, 40_addressing_and_cycles.md R141: JSR pushes the address of its third byte, high byte first,
and goes to the address whose low byte it holds and whose high byte is the one the bus gives at PC after the
pushes, behind a device port too; where a stored byte answers it is that byte. -/
def Obligations.JsrPushesAndJumps : Prop :=
  ∀ (s : State) (w : Addr), s.con.wf = true →
    let u := ((s.dummyRead (stackAddr s.cpu.sp)).push (hi s.cpu.pc)).push (lo s.cpu.pc)
    ∃ t, exec (.jsr w) s = .next t ∧
      t.cpu = { s.cpu with sp := s.cpu.sp - 2, pc := word (u.value s.cpu.pc) (lo w) } ∧
      s.pushedOnly s.cpu.sp [hi s.cpu.pc, lo s.cpu.pc] t ∧
      (∀ v, t.con.peek s.cpu.pc = some v → u.value s.cpu.pc = v) ∧ t.params = s.params

/-- 44_branch_jump_subroutine.md R272: RTS pulls the low and the high byte and goes one further. -/
def Obligations.RtsPullsAndReturns : Prop :=
  ∀ s : State, ∃ t, exec .rts s = .next t ∧
    t.cpu = { s.cpu with
      sp := s.cpu.sp + 2
      pc := word (s.stackByte (s.cpu.sp + 2)) (s.stackByte (s.cpu.sp + 1)) + 1 } ∧
    s.memoryKept t ∧ t.params = s.params

/-- 44_branch_jump_subroutine.md R271, R272: an RTS that finds the stack as a JSR left it returns to the instruction after
the JSR (the JSR's third byte is at `s.cpu.pc`) with SP as before the call. -/
def Obligations.CallThenReturn : Prop :=
  ∀ (s t u : State) (w : Addr), s.con.wf = true → exec (.jsr w) s = .next t →
    u.cpu.sp = t.cpu.sp → u.con.ram = t.con.ram →
    ∃ v, exec .rts u = .next v ∧ v.cpu.pc = s.cpu.pc + 1 ∧ v.cpu.sp = s.cpu.sp

/-! ## Stack, flags, system -/

/-- 45_stack_flag_system.md R290, R291; 20_memory.md R70, R72: PHA pushes A, PHP the flags with bits 5 and 4 set. -/
def Obligations.PushInstructions : Prop :=
  ∀ (s : State) (i : Instr) (v : Byte), s.con.wf = true →
    (i = .pha ∧ v = s.cpu.a) ∨ (i = .php ∧ v = s.cpu.p.pack 0b11) →
    ∃ t, exec i s = .next t ∧ t.cpu = { s.cpu with sp := s.cpu.sp - 1 } ∧
      s.pushedOnly s.cpu.sp [v] t ∧ t.params = s.params

/-- 45_stack_flag_system.md R292, R293; 20_memory.md R71: PLA and PLP. -/
def Obligations.PullInstructions : Prop :=
  ∀ s : State,
    (∃ t, exec .pla s = .next t ∧
      t.cpu = { s.cpu with
        sp := s.cpu.sp + 1
        a := s.stackByte (s.cpu.sp + 1)
        p := { s.cpu.p with
          z := s.stackByte (s.cpu.sp + 1) == 0
          n := (s.stackByte (s.cpu.sp + 1)).getLsbD 7 } } ∧
      s.memoryKept t ∧ t.params = s.params) ∧
    (∃ t, exec .plp s = .next t ∧
      t.cpu = { s.cpu with
        sp := s.cpu.sp + 1
        p := { c := (s.stackByte (s.cpu.sp + 1)).getLsbD 0
               z := (s.stackByte (s.cpu.sp + 1)).getLsbD 1
               i := (s.stackByte (s.cpu.sp + 1)).getLsbD 2
               d := (s.stackByte (s.cpu.sp + 1)).getLsbD 3
               v := (s.stackByte (s.cpu.sp + 1)).getLsbD 6
               n := (s.stackByte (s.cpu.sp + 1)).getLsbD 7 } } ∧
      s.memoryKept t ∧ t.params = s.params)

/-- 45_stack_flag_system.md R294 to R301: each flag instruction writes its flag and nothing else; NOP writes nothing. -/
def Obligations.FlagInstructions : Prop :=
  ∀ (s : State) (i : Instr) (p : Status),
    (i = .clc ∧ p = { s.cpu.p with c := false }) ∨ (i = .sec ∧ p = { s.cpu.p with c := true }) ∨
      (i = .cli ∧ p = { s.cpu.p with i := false }) ∨ (i = .sei ∧ p = { s.cpu.p with i := true }) ∨
      (i = .cld ∧ p = { s.cpu.p with d := false }) ∨ (i = .sed ∧ p = { s.cpu.p with d := true }) ∨
      (i = .clv ∧ p = { s.cpu.p with v := false }) ∨ (i = .nop ∧ p = s.cpu.p) →
    ∃ t, exec i s = .next t ∧ t.cpu = { s.cpu with p := p } ∧ s.memoryKept t ∧ t.params = s.params

/-- 45_stack_flag_system.md R303, 60_exceptions.md R344: BRK pushes the address after its padding byte and the flags with bits 5
and 4 set, sets I, and goes to the address stored at 0xFFFE, whatever I is and whatever is pending. -/
def Obligations.BrkTakesTheSoftwareInterrupt : Prop :=
  ∀ s : State, s.con.wf = true → ∃ l h t,
    s.con.peek 0xFFFE = some l ∧ s.con.peek 0xFFFF = some h ∧ exec .brk s = .next t ∧
    t.cpu = { s.cpu with
      sp := s.cpu.sp - 3, p := { s.cpu.p with i := true }, pc := word h l } ∧
    s.pushedOnly s.cpu.sp [hi (s.cpu.pc + 1), lo (s.cpu.pc + 1), s.cpu.p.pack 0b11] t ∧
    t.params = s.params

/-- 45_stack_flag_system.md R304, 60_exceptions.md R351: RTI pulls the flags and the PC, with no `+ 1`. -/
def Obligations.RtiReturnsFromInterrupt : Prop :=
  ∀ s : State, ∃ t, exec .rti s = .next t ∧
    t.cpu = { s.cpu with
      sp := s.cpu.sp + 3
      p := Status.unpack (s.stackByte (s.cpu.sp + 1))
      pc := word (s.stackByte (s.cpu.sp + 3)) (s.stackByte (s.cpu.sp + 2)) } ∧
    s.memoryKept t ∧ t.params = s.params

/-! ## Interrupts -/

/-- 60_exceptions.md R341, R354: RESET takes priority, then NMI, then IRQ if `I = 0`; the request taken is cleared
and the others stay. -/
def Obligations.InterruptPriority : Prop :=
  ∀ s : State, s.cpu.fault = none → s.cpu.control = .idle →
    (s.cpu.resetReq = true →
      step s = .next ((s.mapCpu (fun c => { c with resetReq := false })).runSequence .reset)) ∧
    (s.cpu.resetReq = false → s.cpu.nmiReq = true →
      step s = .next ((s.mapCpu (fun c => { c with nmiReq := false })).runSequence .nmi)) ∧
    (s.cpu.resetReq = false → s.cpu.nmiReq = false → s.cpu.irqReq = true → s.cpu.p.i = false →
      step s = .next ((s.mapCpu (fun c => { c with irqReq := false })).runSequence .irq))

/-- 60_exceptions.md R346, R347, R348: what an IRQ or NMI sequence does in its 7 cycles: the three bytes pushed, SP, I
and PC, and nothing else of the core or of memory. -/
def Obligations.IrqAndNmiSequences : Prop :=
  ∀ (s : State) (q : Seq) (vec : Addr), s.con.wf = true → (q = .irq ∧ vec = 0xFFFE) ∨ (q = .nmi ∧ vec = 0xFFFA) →
    ∃ l h, s.con.peek vec = some l ∧ s.con.peek (vec + 1) = some h ∧
      (s.runSequence q).cpu = { s.cpu with
        sp := s.cpu.sp - 3, p := { s.cpu.p with i := true }, pc := word h l } ∧
      s.pushedOnly s.cpu.sp [hi s.cpu.pc, lo s.cpu.pc, s.cpu.p.pack s.params.pushBitsHw]
        (s.runSequence q) ∧
      (s.runSequence q).con.clock = s.con.clock + 7 ∧ (s.runSequence q).params = s.params

/-- 60_exceptions.md R350: the RESET sequence lowers SP by 3 and writes nothing. -/
def Obligations.ResetSequence : Prop :=
  ∀ s : State, ∃ l h, s.con.peek 0xFFFC = some l ∧ s.con.peek 0xFFFD = some h ∧
    (s.runSequence .reset).cpu = { s.cpu with
      sp := s.cpu.sp - 3, p := { s.cpu.p with i := true }, pc := word h l } ∧
    s.memoryKept (s.runSequence .reset) ∧
    (s.runSequence .reset).con.clock = s.con.clock + 7 ∧ (s.runSequence .reset).params = s.params

/-- 60_exceptions.md R342: an IRQ request seen while `I = 1` is not taken: the step runs the next instruction, and
with the `hold` policy the request is still pending after it, with `drop` it is not. -/
def Obligations.MaskedIrqIsHeldOrDropped : Prop :=
  ∀ s t : State, s.cpu.fault = none → s.cpu.control = .idle →
    s.cpu.resetReq = false → s.cpu.nmiReq = false → s.cpu.irqReq = true → s.cpu.p.i = true →
    s.running ∧ (step s = .next t → (t.cpu.irqReq = true ↔ s.params.irqMasked = .hold))

/-- 60_exceptions.md R346, R351: an RTI that finds the stack as an IRQ or NMI sequence left it resumes exactly where
the sequence was taken, with the flags and SP of that moment. -/
def Obligations.InterruptThenReturn : Prop :=
  ∀ (s u : State) (q : Seq), s.con.wf = true → q = .irq ∨ q = .nmi →
    u.cpu.sp = (s.runSequence q).cpu.sp → u.con.ram = (s.runSequence q).con.ram →
    ∃ v, exec .rti u = .next v ∧
      v.cpu.pc = s.cpu.pc ∧ v.cpu.p = s.cpu.p ∧ v.cpu.sp = s.cpu.sp

/-! ## Promises of the whole instruction set -/

/-- 10_state.md R24 to R27, R29, R32: for each flag, no instruction but the named ones changes it. -/
def Obligations.OnlyTheNamedInstructionsWriteEachFlag : Prop :=
  ∀ (i : Instr) (s t : State), exec i s = .next t →
    (i.mnemonic ∉ ([.adc, .sbc, .cmp, .cpx, .cpy, .asl, .rol, .lsr, .ror, .clc, .sec, .plp, .rti] : List Mnemonic) →
      t.cpu.p.c = s.cpu.p.c) ∧
    (i.mnemonic ∉ ([.lda, .ldx, .ldy, .tax, .tay, .txa, .tya, .tsx, .adc, .sbc, .and, .ora, .eor] ++
        [.cmp, .cpx, .cpy, .bit, .asl, .lsr, .rol, .ror, .inc, .dec, .inx, .iny, .dex, .dey, .pla, .plp, .rti]
        : List Mnemonic) →
      t.cpu.p.z = s.cpu.p.z ∧ t.cpu.p.n = s.cpu.p.n) ∧
    (i.mnemonic ∉ ([.sei, .cli, .plp, .rti, .brk] : List Mnemonic) → t.cpu.p.i = s.cpu.p.i) ∧
    (i.mnemonic ∉ ([.sed, .cld, .plp, .rti] : List Mnemonic) → t.cpu.p.d = s.cpu.p.d) ∧
    (i.mnemonic ∉ ([.adc, .sbc, .bit, .clv, .plp, .rti] : List Mnemonic) → t.cpu.p.v = s.cpu.p.v)

/-- 10_state.md R20, R21, R22: for each register, no instruction but the named ones changes it. -/
def Obligations.OnlyTheNamedInstructionsWriteEachRegister : Prop :=
  ∀ (i : Instr) (s t : State), exec i s = .next t →
    (i.mnemonic ∉ ([.lda, .pla, .txa, .tya, .adc, .sbc, .and, .ora, .eor] : List Mnemonic) → i.mode ≠ .acc →
      t.cpu.a = s.cpu.a) ∧
    (i.mnemonic ∉ ([.ldx, .tax, .tsx, .inx, .dex] : List Mnemonic) → t.cpu.x = s.cpu.x) ∧
    (i.mnemonic ∉ ([.ldy, .tay, .iny, .dey] : List Mnemonic) → t.cpu.y = s.cpu.y) ∧
    (i.mnemonic ∉ ([.pha, .php, .pla, .plp, .txs, .jsr, .rts, .brk, .rti] : List Mnemonic) →
      t.cpu.sp = s.cpu.sp) ∧
    (i.mnemonic ∉ ([.jmp, .jsr, .rts, .rti, .brk, .bpl, .bmi, .bvc, .bvs, .bcc, .bcs, .bne, .beq] : List Mnemonic) →
      t.cpu.pc = s.cpu.pc)

/-- 10_state.md R36, R37; 60_exceptions.md R343: no instruction touches the request flags, the fault, the parameters, or
leaves the core anywhere but where it found it between instructions. -/
def Obligations.InstructionsLeaveRequestsAlone : Prop :=
  ∀ (i : Instr) (s t : State), exec i s = .next t →
    t.cpu.resetReq = s.cpu.resetReq ∧ t.cpu.nmiReq = s.cpu.nmiReq ∧ t.cpu.irqReq = s.cpu.irqReq ∧
    t.cpu.fault = s.cpu.fault ∧ t.cpu.control = s.cpu.control ∧ t.params = s.params

/-- Memory changes only by the stores, the memory forms of the read-modify-write instructions and the
pushes (40_addressing_and_cycles.md R124; 20_memory.md R70): after any other instruction every address reads as before. -/
def Obligations.OnlyStoringInstructionsChangeMemory : Prop :=
  ∀ (i : Instr) (s t : State), exec i s = .next t →
    i.mnemonic ∉ ([.sta, .stx, .sty, .inc, .dec, .pha, .php, .jsr, .brk] : List Mnemonic) →
    (i.mnemonic ∈ ([.asl, .lsr, .rol, .ror] : List Mnemonic) → i.mode = .acc) →
    s.memoryKept t

/-- 20_memory.md R82: no step changes a PRG-ROM byte, whatever it runs. -/
def Obligations.RomBytesNeverChange : Prop :=
  ∀ (s t : State) (k : Nat), step s = .next t → t.con.byteOf (.prgRom k) = s.con.byteOf (.prgRom k)

/-! ## The bus and the devices -/

/-- 20_memory.md R66, R69: RAM is 2048 bytes four times over: a byte written at an address below 0x2000 is read at
every address with the same low 11 bits, at once and by any later read, and no other RAM byte changed. -/
def Obligations.RamIsMirrored : Prop :=
  ∀ (c : Console) (p : Params) (a b : Addr) (v : Byte), c.wf = true → a.toNat < 0x2000 → b.toNat < 0x2000 →
    (a.toNat % 0x800 = b.toNat % 0x800 → (c.writeCycle p a v).cycleValue p b = v) ∧
    (a.toNat % 0x800 ≠ b.toNat % 0x800 → (c.writeCycle p a v).cycleValue p b = c.cycleValue p b)

/-- 60_exceptions.md R389: a PPUDATA read below palette space returns the read before's byte and refills the
buffer, in palette space it bypasses the buffer; after a read or a write of PPUDATA the VRAM address moves on by 1
or 32, or by the stepping of rendering; PPUSCROLL and PPUADDR share the one toggle, no write of another port and no
read but that of the status port moves it. The model's choices in it: the port numbers and the status port's toggle
reset (log 14), that no other write moves the toggle (log 15), that both coarse steps are made (log 16), that a palette
read leaves the buffer (log 17), the 14-bit address and the 32 palette bytes (log 32). When rendering is active, which
bit of PPUCTRL chooses (log 14) and the steps are free values of Config; the statement holds for every value of them. -/
def Obligations.PpuAddressPorts : Prop :=
  ∀ (p : Ppu) (cart : Cart) (d : Byte) (port : BitVec 3) (n : Nat),
    (p.v.toNat % 0x4000 < 0x3F00 →
      p.portValue cart 7 n = p.readBuffer ∧ (p.portReadEffect cart 7).readBuffer = p.memRead cart) ∧
    (0x3F00 ≤ p.v.toNat % 0x4000 →
      p.portValue cart 7 n = p.palette.read (p.v.toNat % 32) ∧
      (p.portReadEffect cart 7).readBuffer = p.readBuffer) ∧
    (p.portReadEffect cart 7).v =
      (if Config.ppuRendering p.mask p.scanline.val p.cycle.val then
        Config.ppuCoarseY p.mask (Config.ppuCoarseX p.mask p.v)
        else p.v + (if Config.ppuIncrementBit.on p.ctrl then 32 else 1)) ∧
    (p.portWrite cart 7 d).v = (p.portReadEffect cart 7).v ∧
    (port ∈ ([5, 6] : List (BitVec 3)) → p.grace = 0 → (p.portWrite cart port d).w = !p.w) ∧
    (port ∉ ([5, 6] : List (BitVec 3)) → (p.portWrite cart port d).w = p.w) ∧
    (port ≠ 2 → (p.portReadEffect cart port).w = p.w)

/-- 60_exceptions.md R390: the grace period begins at power-on and at the host's reset (log 23) with the parameter's
count (nominally 88974 dots) and goes down by one a dot; while it runs, writes of the control, mask, scroll and
address ports are no-ops; after it PPUCTRL and PPUMASK hold what is written. That these are ports 0, 1, 5 and 6 is
the model's choice (log 14). -/
def Obligations.PpuGracePeriod : Prop :=
  Params.standard.ppuGrace = 88974 ∧
  (∀ (cart : Cart) (params : Params), (State.powerOn cart params).con.ppu.grace = params.ppuGrace) ∧
  (∀ s : State, s.pressReset.con.ppu.grace = s.params.ppuGrace) ∧
  ∀ (p : Ppu) (cart : Cart) (d : Byte) (port : BitVec 3),
    (p.dot cart).grace = p.grace - 1 ∧
    (port ∈ ([0, 1, 5, 6] : List (BitVec 3)) → p.grace ≠ 0 → p.portWrite cart port d = p) ∧
    (p.grace = 0 → (p.portWrite cart 0 d).ctrl = d ∧ (p.portWrite cart 1 d).mask = d)

/-- 60_exceptions.md R387: one dot moves the counter one on, wrapping at 340 and 261; VBlank is set at scanline 241
cycle 1; the flags are cleared at cycle 1 of line 261. After the wrap at 340 a line begins at cycle 0, but that line 0
begins at cycle 1 after a frame of the one parity. Which parity that is is a free value of Config, and that a dot
applies the events of the counter's new position is the model's choice (log 16). -/
def Obligations.PpuDotCounterAndFlags : Prop :=
  ∀ (p : Ppu) (cart : Cart),
    (p.cycle.val < 340 →
      (p.dot cart).cycle.val = p.cycle.val + 1 ∧ (p.dot cart).scanline = p.scanline) ∧
    (p.cycle.val = 340 → (p.dot cart).scanline.val = (p.scanline.val + 1) % 262) ∧
    (p.cycle.val = 340 → p.scanline ≠ 261 →
      (p.dot cart).cycle = 0 ∧ (p.dot cart).oddFrame = p.oddFrame) ∧
    (p.cycle.val = 340 → p.scanline = 261 →
      (p.dot cart).cycle = (if p.oddFrame = Config.ppuSkipParity then 1 else 0) ∧
      (p.dot cart).oddFrame = !p.oddFrame) ∧
    (p.scanline = 241 → p.cycle = 0 → (p.dot cart).vblank = true) ∧
    (p.scanline = 261 → p.cycle = 0 →
      (p.dot cart).vblank = false ∧ (p.dot cart).spriteZeroHit = false ∧
      (p.dot cart).spriteOverflow = false)

/-- 60_exceptions.md R391: with the first nine sprites in range, exactly the first eight are found and the overflow is
set; never more than eight are found. That the scan begins at byte 0 is the model's choice (log 35). -/
def Obligations.SpriteEvaluationLimit : Prop :=
  ∀ (inRange : Byte → Bool) (oam : Memory),
    (scanOam inRange oam 256 0 []).1.length ≤ 32 ∧
    ((∀ k, k < 9 → inRange (oam.read (4 * k)) = true) →
      scanOam inRange oam 256 0 [] = ((List.range 32).map (fun k => oam.read k), true))

/-- 60_exceptions.md R401, R440: a write behind the closed lock does nothing; a write that goes through closes the
lock, so that the write in the next clock is ignored, and two clocks after any write the lock is open; a write with
bit 7 set drops what was collected and commits nothing; five writes with bit 7 clear, two or more clocks apart, put
their bits 0, the first lowest, into the register that the last one's address selects, and into no other. That the
first bit ends lowest and how the lock is clocked is log 12. -/
def Obligations.Mmc1SerialWrites : Prop :=
  ∀ (m : Mmc1) (a : Addr) (v : Byte),
    (m.lock ≠ 0 → m.write a v = m) ∧
    (m.lock = 0 → m.write a v = { m.serialWrite a v with lock := 1 }) ∧
    (m.lock = 0 → (m.write a v).clock.lock ≠ 0 ∧
      ∀ (b : Addr) (u : Byte), (m.write a v).clock.write b u = (m.write a v).clock) ∧
    (∀ n : Nat, 2 ≤ n → (iterate Mmc1.clock n (m.write a v)).lock = 0) ∧
    (m.lock = 0 → v.getLsbD 7 = true →
      (m.write a v).count = 0 ∧ (m.write a v).shift = 0 ∧ (m.write a v).control = m.control ∧
      (m.write a v).chrBank0 = m.chrBank0 ∧ (m.write a v).chrBank1 = m.chrBank1 ∧
      (m.write a v).prgBank = m.prgBank) ∧
    (∀ (n : Nat) (a0 a1 a2 a3 a4 : Addr) (v0 v1 v2 v3 v4 : Byte), 2 ≤ n → m.lock = 0 → m.count = 0 →
      v0.getLsbD 7 = false → v1.getLsbD 7 = false → v2.getLsbD 7 = false → v3.getLsbD 7 = false →
      v4.getLsbD 7 = false →
      let w := fun (a : Addr) (v : Byte) (m : Mmc1) => iterate Mmc1.clock n (m.write a v)
      let r := w a4 v4 (w a3 v3 (w a2 v2 (w a1 v1 (w a0 v0 m))))
      let value := BitVec.ofBool (v4.getLsbD 0) ++ BitVec.ofBool (v3.getLsbD 0) ++
        BitVec.ofBool (v2.getLsbD 0) ++ BitVec.ofBool (v1.getLsbD 0) ++ BitVec.ofBool (v0.getLsbD 0)
      r.count = 0 ∧ r.shift = 0 ∧
      r.control = (if a4.getLsbD 14 = false ∧ a4.getLsbD 13 = false then value else m.control) ∧
      r.chrBank0 = (if a4.getLsbD 14 = false ∧ a4.getLsbD 13 = true then value else m.chrBank0) ∧
      r.chrBank1 = (if a4.getLsbD 14 = true ∧ a4.getLsbD 13 = false then value else m.chrBank1) ∧
      r.prgBank = (if a4.getLsbD 14 = true ∧ a4.getLsbD 13 = true then value else m.prgBank))

/-- 60_exceptions.md R404: after strobe high then low, eight reads give the eight buttons in order, one per read, in the
one bit of the byte that carries a button; the position of that bit and the other bits are free values of Config
(log 20). -/
def Obligations.ControllerReadsEightButtons : Prop :=
  ∀ (p : Pad) (n : Nat) (k : Nat), k < 8 →
    (iterate (Pad.afterRead false) k (p.afterStrobe true false)).value false n =
      padByte (p.buttons.getLsbD k) n ∧
    ((iterate (Pad.afterRead false) k (p.afterStrobe true false)).value false n).getLsbD
      Config.padButtonBit.val = p.buttons.getLsbD k

/-- 60_exceptions.md R405: a frame-counter write leaves divider and step alone and schedules their reset: nothing
restarts in the next APU cycle, both restart in the one after it. R405 counts exactly two CPU cycles: that they are two
APU cycles from the write, and that the divider restarts with the mode in force from the write on, is the model's
choice (log 19). -/
def Obligations.FrameCounterResetIsDelayed : Prop :=
  ∀ (a : Apu) (d : Byte),
    let w := a.writeFrameCounter d
    w.divider = a.divider ∧ w.stepIndex = a.stepIndex ∧
    w.dueClock.resetCountdown.divider = a.divider ∧ w.dueClock.resetCountdown.stepIndex = a.stepIndex ∧
    w.dueClock.resetCountdown.resetIn = 1 ∧
    (w.cycle.dueClock.resetCountdown).divider = Config.apuDivider w.fiveStep 0 ∧
    (w.cycle.dueClock.resetCountdown).stepIndex = 0

/-- 60_exceptions.md R382, R386, R394, R398 to R401, R404: what a write from 0x2000 on reaches and does there, port by
port; none of them reaches CPU RAM. The model's choices in it: the PPU's port numbers (log 14), the APU's and the
controllers' addresses (logs 18, 20), the PRG-RAM window's 8 KB and the PRG window from 0x8000 on (log 11), that the
MMC1 lock covers the PRG window alone (log 12), that a CNROM write has no bus conflict and no mask (log 34). -/
def Obligations.DeviceWriteDispatch : Prop :=
  ∀ (c : Console) (a : Addr) (v : Byte), 0x2000 ≤ a.toNat →
    (c.writeByte a v).ram = c.ram ∧
    (a.toNat < 0x4000 →
      (c.writeByte a v).ppu = c.ppu.portWrite c.cart (BitVec.ofNat 3 (a.toNat % 8)) v ∧
      (c.writeByte a v).cart = c.ppu.portWriteCart c.cart (BitVec.ofNat 3 (a.toNat % 8)) v) ∧
    (0x4000 ≤ a.toNat → a.toNat < 0x4014 →
      c.writeByte a v = { c with apu := c.apu.writeRegister (BitVec.ofNat 5 (a.toNat - 0x4000)) v }) ∧
    (a = 0x4014 → c.writeByte a v = c) ∧
    (a = 0x4015 → c.writeByte a v = { c with apu := c.apu.writeControl v }) ∧
    (a = 0x4016 → c.writeByte a v = { c with
      strobe := Config.strobeBit.on v
      pad1 := c.pad1.afterStrobe c.strobe (Config.strobeBit.on v)
      pad2 := c.pad2.afterStrobe c.strobe (Config.strobeBit.on v) }) ∧
    (a = 0x4017 → c.writeByte a v = { c with apu := c.apu.writeFrameCounter v }) ∧
    (0x4018 ≤ a.toNat → a.toNat < 0x6000 → c.writeByte a v = c) ∧
    (0x6000 ≤ a.toNat → a.toNat < 0x8000 →
      c.writeByte a v = { c with cart :=
        if c.cart.prgRamEnabled then { c.cart with prgRam := c.cart.prgRam.write (a.toNat % 0x2000) v }
        else c.cart }) ∧
    (0x8000 ≤ a.toNat →
      (c.cart.kind = .nrom → c.writeByte a v = c) ∧
      (c.cart.kind = .cnrom → c.writeByte a v = { c with cart := { c.cart with chrBank := v } }) ∧
      (c.cart.kind = .mmc1 →
        c.writeByte a v = { c with cart := { c.cart with mmc1 := c.cart.mmc1.write a v } }))

end Statements
end

