-- ==== Sys2Proof/Laws/Bits.lean ====
section
/-! SUPPORT. The laws of the byte and word helpers: the parts of a word, the word of its parts, as numbers. -/

namespace Sys2Proof.Machine

@[simp] theorem bitMask_self : ∀ i : Fin 8, (bitMask i).getLsbD i.val = true := by decide

/-- The bit that was set. -/
@[simp] theorem withBit_self (i : Fin 8) (b : Bool) (v : Byte) : (withBit i b v).getLsbD i.val = b := by
  unfold withBit
  cases b <;> simp

theorem bitMask_other {i j : Fin 8} (h : j ≠ i) : (bitMask i).getLsbD j.val = false := by
  revert i j; decide

/-- Every other bit is as before. -/
theorem withBit_other {i j : Fin 8} (h : j ≠ i) (b : Bool) (v : Byte) :
    (withBit i b v).getLsbD j.val = v.getLsbD j.val := by
  have hm := bitMask_other h
  cases b <;> simp [withBit, BitVec.getLsbD_eq_getElem] at hm ⊢ <;> simp [hm]

theorem word_toNat (h l : Byte) : (word h l).toNat = h.toNat * 256 + l.toNat := by
  have hl := l.isLt
  simp only [word, BitVec.toNat_append]
  rw [← Nat.shiftLeft_add_eq_or_of_lt hl, Nat.shiftLeft_eq]

theorem hi_toNat (w : Addr) : (hi w).toNat = w.toNat / 256 := by
  have hw := w.isLt
  simp only [hi, BitVec.extractLsb'_toNat, Nat.shiftRight_eq_div_pow]
  omega

theorem lo_toNat (w : Addr) : (lo w).toNat = w.toNat % 256 := by
  simp [lo, BitVec.toNat_setWidth]

theorem zext16_toNat (b : Byte) : (zext16 b).toNat = b.toNat := by
  have hb := b.isLt
  simp only [zext16, BitVec.toNat_setWidth]
  omega

@[simp] theorem hi_word (h l : Byte) : hi (word h l) = h := by
  have hl := l.isLt
  refine BitVec.eq_of_toNat_eq ?_
  rw [hi_toNat, word_toNat]
  omega

@[simp] theorem lo_word (h l : Byte) : lo (word h l) = l := by
  have hl := l.isLt
  refine BitVec.eq_of_toNat_eq ?_
  rw [lo_toNat, word_toNat]
  omega

@[simp] theorem word_hi_lo (w : Addr) : word (hi w) (lo w) = w := by
  refine BitVec.eq_of_toNat_eq ?_
  rw [word_toNat, hi_toNat, lo_toNat]
  omega

/-- Two words are equal when their bytes are. -/
theorem word_ext {v w : Addr} (h : hi v = hi w) (l : lo v = lo w) : v = w := by
  rw [← word_hi_lo v, ← word_hi_lo w, h, l]

/-- The bytes of a sum with a byte: the low bytes add, a carry goes into the high byte. -/
theorem add_zext16_toNat (w : Addr) (b : Byte) :
    (w + zext16 b).toNat = (w.toNat + b.toNat) % 65536 := by
  rw [BitVec.toNat_add, zext16_toNat]

end Sys2Proof.Machine
end

