-- ==== Sys2Proof/Laws/Memory.lean ====
section
/-! SUPPORT. The laws of the canonical byte memory: read after write, writes elsewhere, the canonical form and
the size bound kept by every operation. -/

namespace Sys2Proof.Machine

namespace Memory

@[simp] theorem read_nil (a : Nat) : Memory.read [] a = Memory.default := rfl

@[simp] theorem read_entry (b : Nat) (v : BitVec 8) (m : Memory) (a : Nat) :
    Memory.read ((b, v) :: m) a = if a = b then v else Memory.read m a := rfl

theorem wf_nil : Memory.wf [] = true := rfl

theorem wfFrom_entry {k b : Nat} {v : BitVec 8} {m : Memory} :
    Memory.wfFrom k ((b, v) :: m) = true ↔ k ≤ b ∧ v ≠ Memory.default ∧ Memory.wfFrom (b + 1) m = true := by
  simp [Memory.wfFrom, and_assoc]

theorem wfFrom_mono {k j : Nat} (h : j ≤ k) : ∀ {m : Memory}, m.wfFrom k = true → m.wfFrom j = true
  | [], _ => rfl
  | (b, v) :: m, hm => by
    rw [wfFrom_entry] at hm ⊢
    exact ⟨by omega, hm.2⟩

/-- Below the first key a memory reads as the default. -/
theorem read_below {k a : Nat} (h : a < k) : ∀ {m : Memory}, m.wfFrom k = true → m.read a = Memory.default
  | [], _ => rfl
  | (b, v) :: m, hm => by
    rw [wfFrom_entry] at hm
    have hab : a ≠ b := by omega
    simp only [read_entry, if_neg hab]
    exact read_below (by omega) hm.2.2

theorem wfFrom_cons {k a : Nat} {v : BitVec 8} {m : Memory} (h : k ≤ a) (hm : m.wfFrom (a + 1) = true) :
    (Memory.cons a v m).wfFrom k = true := by
  unfold Memory.cons
  split
  · exact wfFrom_mono (by omega) hm
  · rename_i hv
    exact wfFrom_entry.2 ⟨h, hv, hm⟩

theorem read_cons {a x : Nat} {v : BitVec 8} {m : Memory} (hm : m.wfFrom (a + 1) = true) :
    (Memory.cons a v m).read x = if a = x then v else m.read x := by
  unfold Memory.cons
  by_cases hv : v = Memory.default
  · by_cases hx : a = x
    · subst hx; simp [hv, read_below (Nat.lt_succ_self a) hm]
    · simp [hv, hx]
  · by_cases hx : a = x
    · simp [hv, hx]
    · simp [hv, hx, Ne.symm hx]

theorem write_spec (a : Nat) (v : BitVec 8) : ∀ (m : Memory) (k : Nat), k ≤ a → m.wfFrom k = true →
    (m.write a v).wfFrom k = true ∧ ∀ x, (m.write a v).read x = if a = x then v else m.read x
  | [], k, hk, _ => ⟨wfFrom_cons hk rfl, fun _ => read_cons rfl⟩
  | (b, w) :: m, k, hk, hm => by
    have hm' := wfFrom_entry.1 hm
    unfold Memory.write
    split
    · rename_i hab
      have h2 : Memory.wfFrom (a + 1) ((b, w) :: m) = true := wfFrom_entry.2 ⟨hab, hm'.2⟩
      exact ⟨wfFrom_cons hk h2, fun x => read_cons h2⟩
    · split
      · rename_i hab
        subst hab
        refine ⟨wfFrom_cons hk hm'.2.2, fun x => ?_⟩
        rw [read_cons hm'.2.2]
        by_cases hx : a = x
        · simp [hx]
        · simp [hx, Ne.symm hx]
      · rename_i h1 h2
        have ih := write_spec a v m (b + 1) (by omega) hm'.2.2
        refine ⟨wfFrom_entry.2 ⟨hm'.1, hm'.2.1, ih.1⟩, fun x => ?_⟩
        simp only [read_entry, ih.2]
        by_cases hx : x = b
        · simp [hx, h2]
        · simp [hx]

/-- A write keeps the canonical form. -/
theorem wf_write {m : Memory} (h : m.wf = true) (a : Nat) (v : BitVec 8) : (m.write a v).wf = true :=
  (write_spec a v m 0 (Nat.zero_le _) h).1

/-- Reading after a write. -/
theorem read_write {m : Memory} (h : m.wf = true) (a : Nat) (v : BitVec 8) (x : Nat) :
    (m.write a v).read x = if a = x then v else m.read x :=
  (write_spec a v m 0 (Nat.zero_le _) h).2 x

theorem read_write_same {m : Memory} (h : m.wf = true) (a : Nat) (v : BitVec 8) :
    (m.write a v).read a = v := by
  simp [read_write h]

/-- A write elsewhere is not seen, canonical form or not. -/
theorem read_write_ne {a x : Nat} (hx : a ≠ x) (v : BitVec 8) : ∀ m : Memory, (m.write a v).read x = m.read x
  | [] => by simp only [Memory.write, Memory.cons]; split <;> simp [Ne.symm hx]
  | (b, w) :: m => by
    simp only [Memory.write, Memory.cons]
    split
    · split <;> simp [Ne.symm hx]
    · split
      · rename_i hab
        subst hab
        split <;> simp [Ne.symm hx]
      · simp [read_write_ne hx v m]

/-- Writing back the byte that is there changes nothing a reader can see. -/
theorem read_write_back {m : Memory} (h : m.wf = true) (a x : Nat) : (m.write a (m.read a)).read x = m.read x := by
  rw [read_write h]
  split
  · rename_i hx; rw [hx]
  · rfl

theorem below_cons {n a : Nat} {v : BitVec 8} {m : Memory} (ha : a < n) (hm : m.below n = true) :
    (Memory.cons a v m).below n = true := by
  unfold Memory.cons
  split
  · exact hm
  · simp only [Memory.below, List.all_cons, Bool.and_eq_true, decide_eq_true_eq] at hm ⊢
    exact ⟨ha, hm⟩

/-- A write inside the size keeps the size. -/
theorem below_write {n a : Nat} (ha : a < n) (v : BitVec 8) : ∀ {m : Memory}, m.below n = true →
    (m.write a v).below n = true
  | [], h => below_cons ha h
  | (b, w) :: m, h => by
    have h' : b < n ∧ Memory.below n m = true := by
      simpa only [Memory.below, List.all_cons, Bool.and_eq_true, decide_eq_true_eq] using h
    unfold Memory.write
    split
    · exact below_cons ha h
    · split
      · exact below_cons ha h'.2
      · have ih := below_write ha v h'.2
        simp only [Memory.below, List.all_cons, Bool.and_eq_true, decide_eq_true_eq]
        exact ⟨h'.1, ih⟩

theorem wf_writeList : ∀ (vs : List (BitVec 8)) {m : Memory} (a : Nat), m.wf = true →
    (m.writeList a vs).wf = true
  | [], _, _, h => h
  | v :: vs, _, a, h => wf_writeList vs (a + 1) (wf_write h a v)

theorem below_writeList {n : Nat} : ∀ (vs : List (BitVec 8)) {m : Memory} (a : Nat), a + vs.length ≤ n →
    m.below n = true → (m.writeList a vs).below n = true
  | [], _, _, _, h => h
  | v :: vs, _, a, hn, h => by
    have hn' : a + (vs.length + 1) ≤ n := hn
    exact below_writeList vs (a + 1) (by omega) (below_write (by omega) v h)

/-- Equal reads make canonical memories equal. -/
theorem ext_of_read : ∀ {m m' : Memory} {k : Nat}, m.wfFrom k = true → m'.wfFrom k = true →
    (∀ a, m.read a = m'.read a) → m = m'
  | [], [], _, _, _, _ => rfl
  | [], (b, v) :: m', _, _, h', h => by
    have hb := wfFrom_entry.1 h'
    have := h b
    simp at this
    exact absurd this.symm hb.2.1
  | (b, v) :: m, [], _, h', _, h => by
    have hb := wfFrom_entry.1 h'
    have := h b
    simp at this
    exact absurd this hb.2.1
  | (b, v) :: m, (b', v') :: m', k, hm, hm', h => by
    have h1 := wfFrom_entry.1 hm
    have h2 := wfFrom_entry.1 hm'
    have hlt : ∀ {x y : Nat} {u w : BitVec 8} {p q : Memory}, x < y → u ≠ Memory.default →
        Memory.wfFrom (y + 1) q = true → Memory.read ((x, u) :: p) x ≠ Memory.read ((y, w) :: q) x := by
      intro x y u w p q hxy hu hq
      have hne : x ≠ y := by omega
      simp only [read_entry, if_true, if_neg hne, read_below (by omega : x < y + 1) hq]
      exact hu
    have hb : b = b' := by
      rcases Nat.lt_trichotomy b b' with hlt' | heq | hgt
      · exact absurd (h b) (hlt hlt' h1.2.1 h2.2.2)
      · exact heq
      · exact absurd (h b').symm (hlt hgt h2.2.1 h1.2.2)
    subst hb
    have hv : v = v' := by simpa using h b
    subst hv
    have : m = m' := by
      refine ext_of_read h1.2.2 h2.2.2 (fun a => ?_)
      by_cases ha : a = b
      · subst ha
        rw [read_below (Nat.lt_succ_self a) h1.2.2, read_below (Nat.lt_succ_self a) h2.2.2]
      · simpa [ha] using h a
    rw [this]

end Memory

end Sys2Proof.Machine
end

