-- ==== Sys2Proof/Laws/Bus.lean ====
section
/-! SUPPORT. What one CPU cycle can do to the stored bytes, the address map, the cycle count and the canonical
forms. The spec lemmas are `Console.readCycle_alike`, `Console.writeCycle_byteOf`, `Console.writeCycle_cellOf`, the
`_clock` lemmas and the `_wf` lemmas. -/

namespace Sys2Proof.Machine

/-! ## Consoles with the same stored bytes behind the same address map -/

/-- `d` holds the same bytes as `c` behind the same address map; the devices may differ. -/
structure Console.Alike (c d : Console) : Prop where
  ram : d.ram = c.ram
  kind : d.cart.kind = c.cart.kind
  prgBanks : d.cart.prgBanks = c.cart.prgBanks
  prgRom : d.cart.prgRom = c.cart.prgRom
  prgRamPresent : d.cart.prgRamPresent = c.cart.prgRamPresent
  prgRam : d.cart.prgRam = c.cart.prgRam
  control : d.cart.mmc1.control = c.cart.mmc1.control
  prgBank : d.cart.mmc1.prgBank = c.cart.mmc1.prgBank

/-- No part of a device's call is lost: the calls made in a CPU cycle and what is carried over make up what was
carried into it and what the cycle adds (00_scope.md R8, `CLOCK_RATIO`). -/
theorem Ratio.due_carry (owed : Nat) (r : Ratio) : r.cycles * r.due owed + r.carry owed = owed + r.calls :=
  Nat.div_add_mod _ _

/-- With a whole number of calls in a CPU cycle nothing is carried over. -/
theorem Ratio.carry_whole {r : Ratio} (h : r.cycles = 1) (owed : Nat) : r.carry owed = 0 := by
  rw [Ratio.carry, h, Nat.mod_one]

namespace Console

theorem Alike.refl (c : Console) : c.Alike c := ⟨rfl, rfl, rfl, rfl, rfl, rfl, rfl, rfl⟩

theorem Alike.trans {c d e : Console} (h : c.Alike d) (g : d.Alike e) : c.Alike e :=
  ⟨g.ram.trans h.ram, g.kind.trans h.kind, g.prgBanks.trans h.prgBanks, g.prgRom.trans h.prgRom,
    g.prgRamPresent.trans h.prgRamPresent, g.prgRam.trans h.prgRam, g.control.trans h.control,
    g.prgBank.trans h.prgBank⟩

theorem Alike.symm {c d : Console} (h : c.Alike d) : d.Alike c :=
  ⟨h.ram.symm, h.kind.symm, h.prgBanks.symm, h.prgRom.symm, h.prgRamPresent.symm, h.prgRam.symm,
    h.control.symm, h.prgBank.symm⟩

theorem Alike.cartCellOf {c d : Console} (h : c.Alike d) (a : Addr) : d.cart.cellOf a = c.cart.cellOf a := by
  simp only [Cart.cellOf, Cart.prgOffset, Cart.prgRamEnabled, h.kind, h.prgBanks, h.prgRamPresent, h.control,
    h.prgBank]
  rfl

theorem Alike.cellOf {c d : Console} (h : c.Alike d) (a : Addr) : d.cellOf a = c.cellOf a := by
  simp only [Console.cellOf, h.cartCellOf]

theorem Alike.byteOf {c d : Console} (h : c.Alike d) (cell : Cell) : d.byteOf cell = c.byteOf cell := by
  cases cell <;> simp [Console.byteOf, h.ram, h.prgRam, h.prgRom]

theorem Alike.peek {c d : Console} (h : c.Alike d) (a : Addr) : d.peek a = c.peek a := by
  simp [Console.peek, h.cellOf, h.byteOf]

theorem Alike.storeCell {c d : Console} (h : c.Alike d) (a : Addr) : d.storeCell a = c.storeCell a := by
  simp only [Console.storeCell, h.cellOf]

theorem Alike.zeroPageWord {c d : Console} (h : c.Alike d) (p : Byte) : d.zeroPageWord p = c.zeroPageWord p := by
  simp [Console.zeroPageWord, h.ram]

theorem Alike.bankRegister {c d : Console} (h : c.Alike d) (a : Addr) : d.bankRegister a ↔ c.bankRegister a := by
  simp [Console.bankRegister, h.kind]

/-! ## The devices' steps -/

@[simp] theorem stepPpu_ram (b : Bool) (p : Params) (c : Console) : (c.stepPpu b p).ram = c.ram := by
  unfold Console.stepPpu; split <;> rfl

@[simp] theorem stepPpu_cart (b : Bool) (p : Params) (c : Console) : (c.stepPpu b p).cart = c.cart := by
  unfold Console.stepPpu; split <;> rfl

@[simp] theorem stepPpu_clock (b : Bool) (p : Params) (c : Console) : (c.stepPpu b p).clock = c.clock := by
  unfold Console.stepPpu; split <;> rfl

@[simp] theorem stepPpu_apu (b : Bool) (p : Params) (c : Console) : (c.stepPpu b p).apu = c.apu := by
  unfold Console.stepPpu; split <;> rfl

@[simp] theorem stepApu_ram (b : Bool) (p : Params) (c : Console) : (c.stepApu b p).ram = c.ram := by
  unfold Console.stepApu; split <;> rfl

@[simp] theorem stepApu_cart (b : Bool) (p : Params) (c : Console) : (c.stepApu b p).cart = c.cart := by
  unfold Console.stepApu; split <;> rfl

@[simp] theorem stepApu_clock (b : Bool) (p : Params) (c : Console) : (c.stepApu b p).clock = c.clock := by
  unfold Console.stepApu; split <;> rfl

@[simp] theorem stepApu_ppu (b : Bool) (p : Params) (c : Console) : (c.stepApu b p).ppu = c.ppu := by
  unfold Console.stepApu; split <;> rfl

/-- The two devices' shares of a cycle do not look at each other: their order on one side of the access is no
choice. -/
theorem stepPpu_stepApu (b b' : Bool) (p : Params) (c : Console) :
    (c.stepPpu b p).stepApu b' p = (c.stepApu b' p).stepPpu b p := by
  cases b <;> cases b' <;> rfl

@[simp] theorem beginCycle_ram (p : Params) (c : Console) : (c.beginCycle p).ram = c.ram := by
  simp [Console.beginCycle]

@[simp] theorem beginCycle_cart (p : Params) (c : Console) : (c.beginCycle p).cart = c.cart := by
  simp [Console.beginCycle]

@[simp] theorem beginCycle_clock (p : Params) (c : Console) : (c.beginCycle p).clock = c.clock := by
  simp [Console.beginCycle]

@[simp] theorem endCycle_ram (p : Params) (c : Console) : (c.endCycle p).ram = c.ram := by
  simp [Console.endCycle]

@[simp] theorem endCycle_cart (p : Params) (c : Console) : (c.endCycle p).cart = c.cart.clock := by
  simp [Console.endCycle]

@[simp] theorem endCycle_clock (p : Params) (c : Console) : (c.endCycle p).clock = c.clock + 1 := by
  simp [Console.endCycle]

theorem alike_of_ram_cart {c d : Console} (hr : d.ram = c.ram) (hc : d.cart = c.cart) : c.Alike d := by
  constructor <;> simp [hr, hc]

theorem beginCycle_alike (p : Params) (c : Console) : c.Alike (c.beginCycle p) :=
  alike_of_ram_cart (by simp) (by simp)

theorem endCycle_alike (p : Params) (c : Console) : c.Alike (c.endCycle p) := by
  constructor <;> simp [Cart.clock, Mmc1.clock]

/-! ## Reads -/

@[simp] theorem readEffect_ram (a : Addr) (c : Console) : (c.readEffect a).ram = c.ram := by
  unfold Console.readEffect Console.portReadEffect Console.ioReadEffect
  split
  · rfl
  · split <;> (try split) <;> rfl

@[simp] theorem readEffect_cart (a : Addr) (c : Console) : (c.readEffect a).cart = c.cart := by
  unfold Console.readEffect Console.portReadEffect Console.ioReadEffect
  split
  · rfl
  · split <;> (try split) <;> rfl

@[simp] theorem readEffect_clock (a : Addr) (c : Console) : (c.readEffect a).clock = c.clock := by
  unfold Console.readEffect Console.portReadEffect Console.ioReadEffect
  split
  · rfl
  · split <;> (try split) <;> rfl

/-- A read cycle changes no stored byte and nothing of the address map. -/
theorem readCycle_alike (p : Params) (a : Addr) (c : Console) : c.Alike (c.readCycle p a) :=
  ((beginCycle_alike p c).trans (alike_of_ram_cart (by simp) (by simp))).trans (endCycle_alike p _)

theorem quietCycle_alike (p : Params) (c : Console) : c.Alike (c.quietCycle p) :=
  (beginCycle_alike p c).trans (endCycle_alike p _)

@[simp] theorem readCycle_clock (p : Params) (a : Addr) (c : Console) :
    (c.readCycle p a).clock = c.clock + 1 := by
  simp [Console.readCycle]

@[simp] theorem quietCycle_clock (p : Params) (c : Console) : (c.quietCycle p).clock = c.clock + 1 := by
  simp [Console.quietCycle]

/-- The byte a cycle reads where a stored byte answers. -/
theorem cycleValue_of_peek {p : Params} {a : Addr} {c : Console} {v : Byte} (h : c.peek a = some v) :
    c.cycleValue p a = v := by
  have hb := beginCycle_alike p c
  obtain ⟨cell, hc, hv⟩ := Option.map_eq_some_iff.1 h
  simp [Console.cycleValue, Console.readByte, hb.cellOf, hc, hb.byteOf, hv]

theorem cycleValue_of_cell {p : Params} {a : Addr} {c : Console} {cell : Cell} (h : c.cellOf a = some cell) :
    c.cycleValue p a = c.byteOf cell :=
  cycleValue_of_peek (by simp [Console.peek, h])

/-- The raw debug read of a stored byte: that byte, and nothing changes, whatever the parameter (10_state.md R44). -/
theorem debug_of_peek {a : Addr} {c : Console} {v : Byte} (d : DebugPorts) (h : c.peek a = some v) :
    c.debugValue d a = v ∧ c.debugEffect d a = c := by
  obtain ⟨cell, hc, -⟩ := Option.map_eq_some_iff.1 h
  cases d <;> simp [Console.debugValue, Console.debugEffect, Console.readEffect, h, hc]

/-- A raw debug read changes no stored byte and nothing of the address map. -/
theorem debugEffect_alike (d : DebugPorts) (a : Addr) (c : Console) : c.Alike (c.debugEffect d a) := by
  cases d
  · exact .refl c
  · exact alike_of_ram_cart (readEffect_ram a c) (readEffect_cart a c)

/-! ## Which addresses are RAM, which are ROM -/

theorem cellOf_ram {a : Addr} (h : a.toNat < 0x2000) (c : Console) : c.cellOf a = some (.ram (a.toNat % 0x800)) := by
  simp [Console.cellOf, region, h]

theorem cellOf_rom {a : Addr} (h : 0x8000 ≤ a.toNat) (c : Console) :
    c.cellOf a = some (.prgRom (c.cart.prgOffset a)) := by
  have h1 : ¬ a.toNat < 0x2000 := by omega
  have h2 : ¬ a.toNat < 0x4000 := by omega
  have h3 : ¬ a.toNat < 0x4020 := by omega
  simp [Console.cellOf, region, h1, h2, h3, Cart.cellOf, h]

theorem zeroPage_toNat (d : Byte) : (zeroPage d).toNat = d.toNat := by
  have h := d.isLt
  simp only [zeroPage, word, BitVec.toNat_append]
  rw [← Nat.shiftLeft_add_eq_or_of_lt h]
  simp

theorem stackAddr_toNat (sp : Byte) : (stackAddr sp).toNat = 0x100 + sp.toNat := by
  have h := sp.isLt
  simp only [stackAddr, word, BitVec.toNat_append]
  rw [← Nat.shiftLeft_add_eq_or_of_lt h]
  rfl

theorem cellOf_zeroPage (d : Byte) (c : Console) : c.cellOf (zeroPage d) = some (.ram d.toNat) := by
  have h := d.isLt
  rw [cellOf_ram (by rw [zeroPage_toNat]; omega), zeroPage_toNat, Nat.mod_eq_of_lt (by omega)]

theorem cellOf_stackAddr (sp : Byte) (c : Console) :
    c.cellOf (stackAddr sp) = some (.ram (stackAddr sp).toNat) := by
  have h := sp.isLt
  rw [cellOf_ram (by rw [stackAddr_toNat]; omega), Nat.mod_eq_of_lt (by rw [stackAddr_toNat]; omega)]

theorem cycleValue_zeroPage (p : Params) (d : Byte) (c : Console) :
    c.cycleValue p (zeroPage d) = c.ram.read d.toNat :=
  cycleValue_of_cell (cellOf_zeroPage d c)

theorem cycleValue_stackAddr (p : Params) (sp : Byte) (c : Console) :
    c.cycleValue p (stackAddr sp) = c.byteOf (.ram (stackAddr sp).toNat) :=
  cycleValue_of_cell (cellOf_stackAddr sp c)

/-! ## What the canonical forms say -/

theorem wf_parts {c : Console} :
    c.wf = true ↔ c.ram.wf = true ∧ c.ram.below 2048 = true ∧ c.cart.wf = true ∧ c.ppu.wf = true := by
  simp [Console.wf, and_assoc]

/-- What the canonical form of the cartridge says, buffer by buffer. -/
theorem cart_wf_parts {c : Cart} : c.wf = true ↔
    (0 < c.prgBanks ∧ c.prgRom.wf = true ∧ c.prgRom.below (c.prgBanks * 0x4000) = true) ∧
    (c.prgRam.wf = true ∧ c.prgRam.below 8192 = true) ∧
    (0 < c.chrBanks ∧ c.chr.wf = true ∧ c.chr.below (c.chrBanks * 0x2000) = true) := by
  simp [Cart.wf, and_assoc]

/-! ## Writes -/

/-- The CPU-visible part of the cartridge is untouched by a write below cartridge space. -/
theorem portWriteCart_fields (cart : Cart) (port : BitVec 3) (d : Byte) (p : Ppu) :
    ∃ chr, p.portWriteCart cart port d = { cart with chr := chr } := by
  unfold Ppu.portWriteCart Ppu.memWriteCart Cart.patternWrite
  split
  · split
    · split
      · exact ⟨_, rfl⟩
      · exact ⟨_, rfl⟩
    · exact ⟨_, rfl⟩
  · exact ⟨_, rfl⟩

theorem ioWrite_ram_cart (r : BitVec 5) (v : Byte) (c : Console) :
    (c.ioWrite r v).ram = c.ram ∧ (c.ioWrite r v).cart = c.cart ∧ (c.ioWrite r v).clock = c.clock ∧
      (c.ioWrite r v).ppu = c.ppu := by
  unfold Console.ioWrite
  split <;> (try split) <;> exact ⟨rfl, rfl, rfl, rfl⟩

/-- A write to a device port (0x2000 to 0x401F) changes no stored byte and nothing of the address map. -/
theorem writeByte_alike_of_port {a : Addr} (h1 : 0x2000 ≤ a.toNat) (h2 : a.toNat < 0x4020) (v : Byte) (c : Console) :
    c.Alike (c.writeByte a v) := by
  have hn : ¬ a.toNat < 0x2000 := by omega
  unfold Console.writeByte
  by_cases h3 : a.toNat < 0x4000
  · simp only [region, hn, h3, if_true, if_false]
    obtain ⟨chr, hc⟩ := portWriteCart_fields c.cart (a.setWidth 3) v c.ppu
    rw [hc]
    exact ⟨rfl, rfl, rfl, rfl, rfl, rfl, rfl, rfl⟩
  · simp only [region, hn, h3, h2, if_true, if_false]
    exact alike_of_ram_cart (ioWrite_ram_cart _ v c).1 (ioWrite_ram_cart _ v c).2.1

theorem writeByte_of_ram {a : Addr} (h : a.toNat < 0x2000) (v : Byte) (c : Console) :
    c.writeByte a v = { c with ram := c.ram.write (a.toNat % 0x800) v } := by
  simp [Console.writeByte, region, h]

theorem writeByte_of_cart {a : Addr} (h : 0x4020 ≤ a.toNat) (v : Byte) (c : Console) :
    c.writeByte a v = { c with cart := c.cart.cpuWrite a v } := by
  have h1 : ¬ a.toNat < 0x2000 := by omega
  have h2 : ¬ a.toNat < 0x4000 := by omega
  have h3 : ¬ a.toNat < 0x4020 := by omega
  simp [Console.writeByte, region, h1, h2, h3]

@[simp] theorem writeByte_clock (a : Addr) (v : Byte) (c : Console) : (c.writeByte a v).clock = c.clock := by
  unfold Console.writeByte
  split
  · rfl
  · rfl
  · exact (ioWrite_ram_cart _ v c).2.2.1
  · rfl

@[simp] theorem writeCycle_clock (p : Params) (a : Addr) (v : Byte) (c : Console) :
    (c.writeCycle p a v).clock = c.clock + 1 := by
  simp [Console.writeCycle]

theorem serialWrite_lock (a : Addr) (v : Byte) (m : Mmc1) : (m.serialWrite a v).lock = m.lock := by
  unfold Mmc1.serialWrite Mmc1.commit
  split
  · rfl
  · split
    · split <;> split <;> rfl
    · rfl

/-- What a CPU write does to the cartridge's memories: PRG-ROM never, the PRG-RAM window where it answers. -/
theorem cpuWrite_rom (a : Addr) (v : Byte) (c : Cart) : (c.cpuWrite a v).prgRom = c.prgRom := by
  unfold Cart.cpuWrite
  split
  · split <;> rfl
  · split
    · split <;> rfl
    · rfl

/-- A write below 0x8000, or to a cartridge without bank registers of the CPU side, keeps the address map. -/
theorem cpuWrite_cellOf {a : Addr} {c : Cart} (h : ¬ (c.kind = .mmc1 ∧ 0x8000 ≤ a.toNat)) (v : Byte) (b : Addr) :
    (c.cpuWrite a v).cellOf b = c.cellOf b := by
  unfold Cart.cpuWrite
  split
  · rename_i h8
    split
    · rfl
    · rfl
    · rename_i hk
      exact absurd ⟨hk, h8⟩ h
  · split
    · split <;> rfl
    · rfl

/-- The cells after a write: the one behind the address holds the byte, the others are as before. -/
theorem writeByte_byteOf (a : Addr) (v : Byte) (c : Console) (cell : Cell) (hw : c.wf = true) :
    (c.writeByte a v).byteOf cell = if c.storeCell a = some cell then v else c.byteOf cell := by
  have hram : c.ram.wf = true := (wf_parts.1 hw).1
  have hprg : c.cart.prgRam.wf = true := (cart_wf_parts.1 (wf_parts.1 hw).2.2.1).2.1.1
  by_cases h1 : a.toNat < 0x2000
  · rw [writeByte_of_ram h1]
    have hs : c.storeCell a = some (.ram (a.toNat % 0x800)) := by simp [Console.storeCell, cellOf_ram h1]
    rw [hs]
    cases cell with
    | ram k => simp [Console.byteOf, Memory.read_write hram]
    | prgRam k => simp [Console.byteOf]
    | prgRom k => simp [Console.byteOf]
  · by_cases h2 : a.toNat < 0x4020
    · have hal := writeByte_alike_of_port (by omega) h2 v c
      have hs : c.storeCell a = none := by
        by_cases h3 : a.toNat < 0x4000 <;> simp [Console.storeCell, Console.cellOf, region, h1, h2, h3]
      simp [hal.byteOf, hs]
    · rw [writeByte_of_cart (by omega)]
      have hc : c.cellOf a = c.cart.cellOf a := by
        have h3 : ¬ a.toNat < 0x4000 := by omega
        simp [Console.cellOf, region, h1, h2, h3]
      by_cases h8 : 0x8000 ≤ a.toNat
      · have hs : c.storeCell a = none := by simp [Console.storeCell, hc, Cart.cellOf, h8]
        rw [hs]
        have hr : (c.cart.cpuWrite a v).prgRam = c.cart.prgRam := by
          simp only [Cart.cpuWrite, h8, if_true]
          split <;> rfl
        cases cell with
        | ram k => simp [Console.byteOf]
        | prgRam k => simp [Console.byteOf, hr]
        | prgRom k => simp [Console.byteOf, cpuWrite_rom]
      · by_cases h6 : 0x6000 ≤ a.toNat
        · by_cases he : c.cart.prgRamEnabled
          · have hs : c.storeCell a = some (.prgRam (a.toNat % 0x2000)) := by
              simp [Console.storeCell, hc, Cart.cellOf, h8, h6, he]
            rw [hs]
            cases cell with
            | ram k => simp [Console.byteOf]
            | prgRam k => simp [Console.byteOf, Cart.cpuWrite, h8, h6, he, Memory.read_write hprg]
            | prgRom k => simp [Console.byteOf, cpuWrite_rom]
          · have hs : c.storeCell a = none := by simp [Console.storeCell, hc, Cart.cellOf, h8, h6, he]
            simp [hs, Cart.cpuWrite, h8, h6, he]
        · have hs : c.storeCell a = none := by simp [Console.storeCell, hc, Cart.cellOf, h8, h6]
          simp [hs, Cart.cpuWrite, h8, h6]

/-- The address map after a write that goes to no bank register. -/
theorem writeByte_cellOf {a : Addr} {c : Console} (h : ¬ c.bankRegister a) (v : Byte) (b : Addr) :
    (c.writeByte a v).cellOf b = c.cellOf b := by
  by_cases h1 : a.toNat < 0x2000
  · rw [writeByte_of_ram h1]; rfl
  · by_cases h2 : a.toNat < 0x4020
    · exact (writeByte_alike_of_port (by omega) h2 v c).cellOf b
    · rw [writeByte_of_cart (by omega)]
      simp only [Console.cellOf, cpuWrite_cellOf h v b]

/-- Which cartridge a Console has never changes. -/
theorem writeByte_kind (a : Addr) (v : Byte) (c : Console) : (c.writeByte a v).cart.kind = c.cart.kind := by
  by_cases h1 : a.toNat < 0x2000
  · rw [writeByte_of_ram h1]
  · by_cases h2 : a.toNat < 0x4020
    · exact (writeByte_alike_of_port (by omega) h2 v c).kind
    · rw [writeByte_of_cart (by omega)]
      show (c.cart.cpuWrite a v).kind = c.cart.kind
      unfold Cart.cpuWrite
      split
      · split <;> simp_all
      · split
        · split <;> rfl
        · rfl

/-! ## Write cycles -/

theorem storeCell_of_bankRegister {a : Addr} {c : Console} (h : c.bankRegister a) : c.storeCell a = none := by
  simp [Console.storeCell, cellOf_rom h.2]

theorem writeCycle_kind (p : Params) (a : Addr) (v : Byte) (c : Console) :
    (c.writeCycle p a v).cart.kind = c.cart.kind := by
  simp [Console.writeCycle, Cart.clock, writeByte_kind]

theorem writeCycle_cellOf {a : Addr} {c : Console} (h : ¬ c.bankRegister a) (p : Params) (v : Byte) (b : Addr) :
    (c.writeCycle p a v).cellOf b = c.cellOf b := by
  have hb := beginCycle_alike p c
  rw [Console.writeCycle, (endCycle_alike p _).cellOf,
    writeByte_cellOf (fun hh => h ((hb.bankRegister a).1 hh)), hb.cellOf]

/-! ## Canonical forms -/

/-- A slot holds the attribute byte and the X of its sprite in secondary OAM after its load cycle, and is kept in
every other cycle outside 1 to 256 (60_exceptions.md R385). -/
theorem tailDot_sprites (cart : Cart) (p : Ppu) (k : Fin 8) :
    (p.tailDot cart).pipe.sprites.get k =
      if p.cycle.val = spriteLoadCycle k then p.loadedSlot cart k else p.pipe.sprites.get k := by
  simp [Ppu.tailDot, Ppu.tailSprites, Vector.get_ofFn]

/-- A slot's load cycle is one of 257 to 340. -/
theorem spriteLoadCycle_range (k : Fin 8) : 257 ≤ spriteLoadCycle k ∧ spriteLoadCycle k ≤ 340 := by
  have h := (Config.ppuSpriteLoad k).isLt
  unfold spriteLoadCycle
  omega

/-- A control bit decides: some data selects its flag and some does not. -/
theorem ControlBit.on_both {n : Nat} [NeZero n] (b : ControlBit n) :
    ∃ d e : BitVec n, b.on d = true ∧ b.on e = false := by
  have h := b.position.isLt
  cases hl : b.level
  · exact ⟨0, BitVec.allOnes n, by simp [ControlBit.on, hl], by simp [ControlBit.on, hl, h]⟩
  · exact ⟨BitVec.allOnes n, 0, by simp [ControlBit.on, hl, h], by simp [ControlBit.on, hl]⟩

theorem ControlBit.beside_ne {n : Nat} [NeZero n] (b : ControlBit (n + 1)) (c : ControlBit n) :
    (b.beside c).position ≠ b.position := Fin.succAbove_ne _ _

/-- The status byte shows each of the three flags in its bit (60_exceptions.md R361, R386). -/
theorem statusByte_flags (n : Nat) (p : Ppu) :
    (p.statusByte n).getLsbD Config.ppuVblankBit.val = p.vblank ∧
    (p.statusByte n).getLsbD spriteZeroHitBit.val = p.spriteZeroHit ∧
    (p.statusByte n).getLsbD spriteOverflowBit.val = p.spriteOverflow := by
  have h1 : spriteZeroHitBit ≠ Config.ppuVblankBit := Fin.succAbove_ne _ _
  have h2 : spriteOverflowBit ≠ Config.ppuVblankBit := Fin.succAbove_ne _ _
  have h3 : spriteOverflowBit ≠ spriteZeroHitBit := fun h =>
    Fin.succAbove_ne _ _ (Fin.succAbove_right_injective h)
  refine ⟨withBit_self _ _ _, ?_, ?_⟩
  · rw [Ppu.statusByte, withBit_other h1, withBit_self]
  · rw [Ppu.statusByte, withBit_other h2, withBit_other h3, withBit_self]

/-- The status byte shows the pending frame IRQ in its bit, and nothing else does (60_exceptions.md R361). -/
theorem status_frameIrq (a : Apu) : a.status.getLsbD Config.apuFrameIrqBit.val = a.frameIrq := by
  have hm : frameIrqMask.getLsbD Config.apuFrameIrqBit.val = true := bitMask_self _
  have hb : ∀ name (c : Channel), (c.statusBits name).getLsbD Config.apuFrameIrqBit.val = false := by
    intro name c
    unfold Channel.statusBits
    split <;> simp [hm]
  simp only [Apu.status, BitVec.getLsbD_or, hb, Bool.false_or]
  split <;> simp_all

theorem iterate_keeps {α : Type} {f : α → α} {P : α → Prop} (hf : ∀ a, P a → P (f a)) :
    ∀ (n : Nat) (a : α), P a → P (iterate f n a)
  | 0, _, h => h
  | n + 1, _, h => iterate_keeps hf n _ (hf _ h)

/-- What the canonical form of the PPU says, memory by memory. -/
theorem ppu_wf_parts {p : Ppu} : p.wf = true ↔
    (p.oam.wf = true ∧ p.oam.below 256 = true) ∧ (p.secondaryOam.wf = true ∧ p.secondaryOam.below 32 = true) ∧
    (p.palette.wf = true ∧ p.palette.below 32 = true) ∧ (p.vram.wf = true ∧ p.vram.below 4096 = true) ∧
    (p.frame.wf = true ∧ p.frame.below 61440 = true) ∧
    (p.lastFrame.wf = true ∧ p.lastFrame.below 61440 = true) := by
  simp only [Ppu.wf, Bool.and_eq_true]
  constructor
  · rintro ⟨⟨⟨⟨⟨⟨⟨⟨⟨⟨⟨a, b⟩, c⟩, d⟩, e⟩, f⟩, g⟩, h⟩, i⟩, j⟩, k⟩, l⟩
    exact ⟨⟨a, b⟩, ⟨c, d⟩, ⟨e, f⟩, ⟨g, h⟩, ⟨i, j⟩, k, l⟩
  · rintro ⟨⟨a, b⟩, ⟨c, d⟩, ⟨e, f⟩, ⟨g, h⟩, ⟨i, j⟩, k, l⟩
    exact ⟨⟨⟨⟨⟨⟨⟨⟨⟨⟨⟨a, b⟩, c⟩, d⟩, e⟩, f⟩, g⟩, h⟩, i⟩, j⟩, k⟩, l⟩

theorem advance_wf {p : Ppu} (h : p.wf = true) : p.advance.wf = true := by
  rw [ppu_wf_parts] at h ⊢
  unfold Ppu.advance
  split
  · split
    · exact ⟨h.1, h.2.1, h.2.2.1, h.2.2.2.1, h.2.2.2.2.1, h.2.2.2.2.1⟩
    · exact h
  · exact h

theorem flagEvents_wf {p : Ppu} (h : p.wf = true) : p.flagEvents.wf = true := by
  rw [ppu_wf_parts] at h ⊢
  unfold Ppu.flagEvents
  split
  · exact h
  · split
    · exact h
    · split <;> exact h

/-- At most 8 sprites, 4 bytes each, are found. -/
theorem scanOam_length (inRange : Byte → Bool) (oam : Memory) : ∀ (fuel ptr : Nat) (found : List Byte),
    found.length ≤ 32 → found.length % 4 = 0 → (scanOam inRange oam fuel ptr found).1.length ≤ 32
  | 0, _, _, h, _ => h
  | fuel + 1, ptr, found, h, h4 => by
    unfold scanOam
    split
    · exact h
    · split
      · split
        · refine scanOam_length inRange oam fuel _ _ ?_ ?_ <;> simp <;> omega
        · exact scanOam_length inRange oam fuel _ _ h h4
      · split
        · exact h
        · exact scanOam_length inRange oam fuel _ _ h h4

theorem spriteEvents_wf {p : Ppu} (h : p.wf = true) : p.spriteEvents.wf = true := by
  have hlen : p.evaluated.1.length ≤ 32 := scanOam_length _ _ _ _ _ (by simp) (by simp)
  rw [ppu_wf_parts] at h ⊢
  unfold Ppu.spriteEvents
  split
  · rename_i hc
    refine ⟨h.1, ⟨Memory.wf_write h.2.1.1 _ _, Memory.below_write ?_ _ h.2.1.2⟩, h.2.2⟩
    omega
  · split
    · exact ⟨h.1, ⟨Memory.wf_writeList _ _ h.2.1.1, Memory.below_writeList _ _ (by omega) h.2.1.2⟩, h.2.2⟩
    · exact h

/-- The pixel buffer after a cycle of a visible scanline is canonical and inside its size. -/
theorem output_wf {p : Ppu} (hs : p.scanline.val < 240) (h : p.wf = true) :
    p.output.wf = true ∧ p.output.below 61440 = true := by
  rw [ppu_wf_parts] at h
  unfold Ppu.output
  split
  · exact ⟨Memory.wf_write h.2.2.2.2.1.1 _ _, Memory.below_write (by omega) _ h.2.2.2.2.1.2⟩
  · exact h.2.2.2.2.1

theorem renderEvents_wf {p : Ppu} (hs : p.scanline.val < 240) (cart : Cart) (h : p.wf = true) :
    (p.renderEvents cart).wf = true := by
  have ho : p.output.wf = true ∧ p.output.below 61440 = true := output_wf hs h
  rw [ppu_wf_parts] at h ⊢
  unfold Ppu.renderEvents
  split <;> exact ⟨h.1, h.2.1, h.2.2.1, h.2.2.2.1, ho, h.2.2.2.2.2⟩

/-- A dot keeps the canonical forms. -/
theorem dot_wf {p : Ppu} (cart : Cart) (h : p.wf = true) : (p.dot cart).wf = true := by
  have hq : ({ p.advance.flagEvents with grace := p.grace - 1 } : Ppu).wf = true := by
    have := flagEvents_wf (advance_wf h)
    rw [ppu_wf_parts] at this ⊢
    exact this
  unfold Ppu.dot
  simp only
  split
  · rename_i hs
    refine renderEvents_wf ?_ cart (spriteEvents_wf hq)
    unfold Ppu.spriteEvents
    split
    · exact hs
    · split <;> exact hs
  · exact hq

theorem stepPpu_wf (b : Bool) (p : Params) {c : Console} (h : c.wf = true) : (c.stepPpu b p).wf = true := by
  unfold Console.stepPpu
  split
  · rw [wf_parts] at h ⊢
    exact ⟨h.1, h.2.1, h.2.2.1, iterate_keeps (P := fun q => Ppu.wf q = true) (fun _ hq => dot_wf _ hq) _ _ h.2.2.2⟩
  · exact h

theorem stepApu_wf (b : Bool) (p : Params) {c : Console} (h : c.wf = true) : (c.stepApu b p).wf = true := by
  rw [wf_parts] at h ⊢
  simpa using h

theorem beginCycle_wf (p : Params) {c : Console} (h : c.wf = true) : (c.beginCycle p).wf = true :=
  stepApu_wf _ p (stepPpu_wf _ p h)

theorem endCycle_wf (p : Params) {c : Console} (h : c.wf = true) : (c.endCycle p).wf = true :=
  stepApu_wf _ p (stepPpu_wf _ p h)

theorem readEffect_wf (a : Addr) {c : Console} (h : c.wf = true) : (c.readEffect a).wf = true := by
  have hp : (c.readEffect a).ppu.wf = true := by
    rw [wf_parts] at h
    unfold Console.readEffect Console.portReadEffect Console.ioReadEffect
    split
    · exact h.2.2.2
    · split
      · show (Ppu.portReadEffect _ _ _).wf = true
        unfold Ppu.portReadEffect
        have h2 := ppu_wf_parts.1 h.2.2.2
        split
        · exact ppu_wf_parts.2 h2
        · split
          · exact ppu_wf_parts.2 h2
          · exact h.2.2.2
      · split <;> exact h.2.2.2
      · exact h.2.2.2
  rw [wf_parts] at h ⊢
  simp only [readEffect_ram, readEffect_cart]
  exact ⟨h.1, h.2.1, h.2.2.1, hp⟩

theorem nametableOffset_lt (a : Nat) (c : Cart) : c.nametableOffset a < 4096 := by
  have hq : c.quadrant (a / 0x400 % 4) < 4 := by
    unfold Cart.quadrant
    split <;> exact Fin.isLt _
  unfold Cart.nametableOffset
  omega

theorem memWrite_wf (cart : Cart) (d : Byte) {p : Ppu} (h : p.wf = true) : (p.memWrite cart d).wf = true := by
  rw [ppu_wf_parts] at h ⊢
  unfold Ppu.memWrite
  split
  · exact h
  · split
    · exact ⟨h.1, h.2.1, h.2.2.1, ⟨Memory.wf_write h.2.2.2.1.1 _ _,
        Memory.below_write (nametableOffset_lt _ _) _ h.2.2.2.1.2⟩, h.2.2.2.2⟩
    · exact ⟨h.1, h.2.1, ⟨Memory.wf_write h.2.2.1.1 _ _, Memory.below_write (by omega) _ h.2.2.1.2⟩, h.2.2.2⟩

theorem oamPort_wf (isData : Bool) (d : Byte) {p : Ppu} (h : p.wf = true) : (p.oamPort isData d).wf = true := by
  rw [ppu_wf_parts] at h ⊢
  refine ⟨?_, h.2⟩
  unfold Ppu.oamPort
  simp only
  split
  · exact h.1
  · rename_i k b hk
    exact ⟨Memory.wf_write h.1.1 _ _, Memory.below_write k.isLt _ h.1.2⟩

theorem writeScroll_wf (d : Byte) {p : Ppu} (h : p.wf = true) : (p.writeScroll d).wf = true := by
  unfold Ppu.writeScroll
  split <;> exact h

theorem writeAddr_wf (d : Byte) {p : Ppu} (h : p.wf = true) : (p.writeAddr d).wf = true := h

@[simp] theorem writeScroll_w (d : Byte) (p : Ppu) : (p.writeScroll d).w = !p.w := by
  unfold Ppu.writeScroll; cases p.w <;> rfl

@[simp] theorem writeAddr_w (d : Byte) (p : Ppu) : (p.writeAddr d).w = !p.w := rfl

/-- The high half of a PPUADDR write leaves the low byte of the temporary address, the low half the other bits
(60_exceptions.md R385). -/
theorem writeAddr_other_half (d : Byte) (p : Ppu) :
    (p.w = false → (p.writeAddr d).t.extractLsb' 0 8 = p.t.extractLsb' 0 8) ∧
    (p.w = true → (p.writeAddr d).t.extractLsb' 8 7 = p.t.extractLsb' 8 7) := by
  constructor <;> intro h <;> simp only [Ppu.writeAddr, h, if_true, Bool.false_eq_true, if_false]
  · exact BitVec.extractLsb'_append_eq_right
  · exact BitVec.extractLsb'_append_eq_left

theorem portWrite_wf (cart : Cart) (port : BitVec 3) (d : Byte) {p : Ppu} (h : p.wf = true) :
    (p.portWrite cart port d).wf = true := by
  unfold Ppu.portWrite
  split
  · split <;> exact h
  · split <;> exact h
  · exact oamPort_wf false d h
  · exact oamPort_wf true d h
  · split
    · exact writeScroll_wf d h
    · exact h
  · split
    · exact writeAddr_wf d h
    · exact h
  · have h2 := memWrite_wf cart d h
    rw [ppu_wf_parts] at h2 ⊢
    exact h2
  · exact h

/-- A pattern-table address leads inside the CHR buffer (60_exceptions.md R397). -/
theorem chrOffset_lt {c : Cart} (h : 0 < c.chrBanks) (a : Nat) : c.chrOffset a < c.chrBanks * 0x2000 :=
  Nat.mod_lt _ (by omega)

/-- A CPU address from 0x8000 on leads inside the PRG-ROM buffer (60_exceptions.md R397). -/
theorem prgOffset_lt {c : Cart} (h : 0 < c.prgBanks) (a : Addr) : c.prgOffset a < c.prgBanks * 0x4000 := by
  have hn : (if c.prgBanks = 1 then a.toNat % 0x4000 else a.toNat % 0x8000) < c.prgBanks * 0x4000 := by
    split <;> omega
  unfold Cart.prgOffset
  split
  · exact hn
  · exact hn
  · exact Nat.mod_lt _ (by omega)

theorem portWriteCart_wf {cart : Cart} (port : BitVec 3) (d : Byte) (p : Ppu) (h : cart.wf = true) :
    (p.portWriteCart cart port d).wf = true := by
  unfold Ppu.portWriteCart Ppu.memWriteCart Cart.patternWrite
  rw [cart_wf_parts] at h
  split
  · split
    · split
      · exact cart_wf_parts.2 ⟨h.1, h.2.1, h.2.2.1, Memory.wf_write h.2.2.2.1 _ _,
          Memory.below_write (chrOffset_lt h.2.2.1 _) _ h.2.2.2.2⟩
      · exact cart_wf_parts.2 h
    · exact cart_wf_parts.2 h
  · exact cart_wf_parts.2 h

theorem cpuWrite_wf (a : Addr) (v : Byte) {c : Cart} (h : c.wf = true) : (c.cpuWrite a v).wf = true := by
  rw [cart_wf_parts] at h ⊢
  unfold Cart.cpuWrite
  split
  · split <;> exact h
  · split
    · split
      · exact ⟨h.1, ⟨Memory.wf_write h.2.1.1 _ _, Memory.below_write (Nat.mod_lt _ (by decide)) _ h.2.1.2⟩, h.2.2⟩
      · exact h
    · exact h

/-- A write keeps the canonical forms. -/
theorem writeByte_wf (a : Addr) (v : Byte) {c : Console} (h : c.wf = true) : (c.writeByte a v).wf = true := by
  have hp := wf_parts.1 h
  unfold Console.writeByte
  split
  · rename_i k hk
    have hlt : k < 2048 := by
      unfold region at hk
      split at hk
      · injection hk with hk; omega
      · split at hk
        · cases hk
        · split at hk <;> cases hk
    exact wf_parts.2 ⟨Memory.wf_write hp.1 _ _, Memory.below_write hlt _ hp.2.1, hp.2.2⟩
  · exact wf_parts.2 ⟨hp.1, hp.2.1, portWriteCart_wf _ _ _ hp.2.2.1, portWrite_wf _ _ _ hp.2.2.2⟩
  · obtain ⟨h1, h2, -, h4⟩ := ioWrite_ram_cart (by assumption) v c
    exact wf_parts.2 (by rw [h1, h2, h4]; exact hp)
  · exact wf_parts.2 ⟨hp.1, hp.2.1, cpuWrite_wf _ _ hp.2.2.1, hp.2.2.2⟩

theorem readCycle_wf (p : Params) (a : Addr) {c : Console} (h : c.wf = true) : (c.readCycle p a).wf = true :=
  endCycle_wf p (readEffect_wf a (beginCycle_wf p h))

theorem quietCycle_wf (p : Params) {c : Console} (h : c.wf = true) : (c.quietCycle p).wf = true :=
  endCycle_wf p (beginCycle_wf p h)

theorem writeCycle_wf (p : Params) (a : Addr) (v : Byte) {c : Console} (h : c.wf = true) :
    (c.writeCycle p a v).wf = true :=
  endCycle_wf p (writeByte_wf a v (beginCycle_wf p h))

/-- The cells after a write cycle. -/
theorem writeCycle_byteOf (p : Params) (a : Addr) (v : Byte) (c : Console) (cell : Cell) (hw : c.wf = true) :
    (c.writeCycle p a v).byteOf cell = if c.storeCell a = some cell then v else c.byteOf cell := by
  have hb := beginCycle_alike p c
  rw [Console.writeCycle, (endCycle_alike p _).byteOf, writeByte_byteOf _ _ _ _ (beginCycle_wf p hw), hb.storeCell,
    hb.byteOf]

end Console

end Sys2Proof.Machine
end

