-- ==== Sys2Proof/Laws/Decode.lean ====
section
/-! SUPPORT. What a table entry says of the instruction it gives: opcode byte, operand bytes, length, mnemonic
and mode. One lemma per form, read off the table entry by entry, so that no later proof unfolds the table. -/

namespace Sys2Proof

open Sys2Proof.Machine

/-- What one entry of the opcode table says, `i` the instruction it gives for the operand bytes `ops`. -/
structure EntryOf (b : Byte) (i : Instr) (ops : List Byte) : Prop where
  opcode : i.opcode = b
  operandBytes : i.operandBytes = ops
  optab : optab b = some (i.mnemonic, i.mode)
  length : i.mode.length = ops.length + 1

/-- What a form says of its instructions. -/
def Form.Says (b : Byte) : Form → Prop
  | .one i => EntryOf b i [] ∧ i.fetchedBytes = 1
  | .two f => ∀ d, EntryOf b (f d) [d] ∧ (f d).fetchedBytes = 2
  | .three f => ∀ w, EntryOf b (f w) [lo w, hi w] ∧ (f w).fetchedBytes = 3
  | .call f => f = .jsr ∧ ∀ w, EntryOf b (f w) [lo w, hi w] ∧ (f w).fetchedBytes = 2

/-- Every table entry says what it should. -/
theorem opcodeForm_says {b : Byte} {f : Form} (h : opcodeForm b = some f) : f.Says b := by
  have hb : ∀ n : Nat, b.toNat = n → b = BitVec.ofNat 8 n := by rintro n rfl; simp
  have h0 := h
  unfold opcodeForm at h
  split at h <;> rename_i hn <;> first
    | (cases h; done)
    | (injection h with h; subst h; have hb := hb _ hn; subst hb
       first
         | exact ⟨⟨rfl, rfl, rfl, rfl⟩, rfl⟩
         | exact fun _ => ⟨⟨rfl, rfl, rfl, rfl⟩, rfl⟩
         | exact ⟨rfl, fun _ => ⟨⟨rfl, rfl, rfl, rfl⟩, rfl⟩⟩)

theorem opcodeForm_one {b : Byte} {i : Instr} (h : opcodeForm b = some (.one i)) :
    EntryOf b i [] ∧ i.fetchedBytes = 1 := opcodeForm_says h

theorem opcodeForm_two {b : Byte} {f : Byte → Instr} (h : opcodeForm b = some (.two f)) (d : Byte) :
    EntryOf b (f d) [d] ∧ (f d).fetchedBytes = 2 := opcodeForm_says h d

theorem opcodeForm_three {b : Byte} {f : Addr → Instr} (h : opcodeForm b = some (.three f)) (w : Addr) :
    EntryOf b (f w) [lo w, hi w] ∧ (f w).fetchedBytes = 3 := opcodeForm_says h w

theorem opcodeForm_call {b : Byte} {f : Addr → Instr} (h : opcodeForm b = some (.call f)) : f = .jsr :=
  (opcodeForm_says h).1

/-- A byte is illegal in the table of forms iff it is in the table of mnemonics and modes. -/
theorem optab_eq_none_iff {b : Byte} : optab b = none ↔ opcodeForm b = none := by
  simp [optab]

end Sys2Proof
end

