-- ==== Sys2Proof/Laws/State.lean ====
section
/-! SUPPORT. One lemma per field per update of the state, so that no proof unfolds a record update; the fields
of the status byte. -/

namespace Sys2Proof.Machine

@[simp] theorem State.mapCpu_cpu (f : Cpu → Cpu) (s : State) : (s.mapCpu f).cpu = f s.cpu := rfl

@[simp] theorem State.mapCpu_con (f : Cpu → Cpu) (s : State) : (s.mapCpu f).con = s.con := rfl

@[simp] theorem State.mapCpu_params (f : Cpu → Cpu) (s : State) : (s.mapCpu f).params = s.params := rfl

@[simp] theorem State.setPc_cpu (a : Addr) (s : State) : (s.setPc a).cpu = { s.cpu with pc := a } := rfl

@[simp] theorem State.setPc_con (a : Addr) (s : State) : (s.setPc a).con = s.con := rfl

@[simp] theorem State.setPc_params (a : Addr) (s : State) : (s.setPc a).params = s.params := rfl

@[simp] theorem State.incPc_cpu (s : State) : (s.incPc).cpu = { s.cpu with pc := s.cpu.pc + 1 } := rfl

@[simp] theorem State.incPc_con (s : State) : (s.incPc).con = s.con := rfl

@[simp] theorem State.incPc_params (s : State) : (s.incPc).params = s.params := rfl

@[simp] theorem State.setSp_cpu (v : Byte) (s : State) : (s.setSp v).cpu = { s.cpu with sp := v } := rfl

@[simp] theorem State.setSp_con (v : Byte) (s : State) : (s.setSp v).con = s.con := rfl

@[simp] theorem State.setSp_params (v : Byte) (s : State) : (s.setSp v).params = s.params := rfl

@[simp] theorem State.incSp_cpu (s : State) : (s.incSp).cpu = { s.cpu with sp := s.cpu.sp + 1 } := rfl

@[simp] theorem State.incSp_con (s : State) : (s.incSp).con = s.con := rfl

@[simp] theorem State.incSp_params (s : State) : (s.incSp).params = s.params := rfl

@[simp] theorem State.decSp_cpu (s : State) : (s.decSp).cpu = { s.cpu with sp := s.cpu.sp - 1 } := rfl

@[simp] theorem State.decSp_con (s : State) : (s.decSp).con = s.con := rfl

@[simp] theorem State.decSp_params (s : State) : (s.decSp).params = s.params := rfl

@[simp] theorem State.setP_cpu (p : Status) (s : State) : (s.setP p).cpu = { s.cpu with p := p } := rfl

@[simp] theorem State.setP_con (p : Status) (s : State) : (s.setP p).con = s.con := rfl

@[simp] theorem State.setP_params (p : Status) (s : State) : (s.setP p).params = s.params := rfl

@[simp] theorem State.maskIrq_cpu (s : State) : (s.maskIrq).cpu = { s.cpu with p := { s.cpu.p with i := true } } :=
  rfl

@[simp] theorem State.maskIrq_con (s : State) : (s.maskIrq).con = s.con := rfl

@[simp] theorem State.maskIrq_params (s : State) : (s.maskIrq).params = s.params := rfl

@[simp] theorem State.read_cpu (a : Addr) (s : State) : (s.read a).cpu = s.cpu := rfl

@[simp] theorem State.read_con (a : Addr) (s : State) : (s.read a).con = s.con.readCycle s.params a := rfl

@[simp] theorem State.read_params (a : Addr) (s : State) : (s.read a).params = s.params := rfl

@[simp] theorem State.write_cpu (a : Addr) (v : Byte) (s : State) : (s.write a v).cpu = s.cpu := rfl

@[simp] theorem State.write_con (a : Addr) (v : Byte) (s : State) : (s.write a v).con = s.con.writeCycle s.params a v :=
  rfl

@[simp] theorem State.write_params (a : Addr) (v : Byte) (s : State) : (s.write a v).params = s.params := rfl

@[simp] theorem State.quiet_cpu (s : State) : (s.quiet).cpu = s.cpu := rfl

@[simp] theorem State.quiet_con (s : State) : (s.quiet).con = s.con.quietCycle s.params := rfl

@[simp] theorem State.quiet_params (s : State) : (s.quiet).params = s.params := rfl

@[simp] theorem State.dummyRead_cpu (a : Addr) (s : State) : (s.dummyRead a).cpu = s.cpu := by
  unfold State.dummyRead; split <;> rfl

@[simp] theorem State.dummyRead_params (a : Addr) (s : State) : (s.dummyRead a).params = s.params := by
  unfold State.dummyRead; split <;> rfl

@[simp] theorem State.dummyWrite_cpu (a : Addr) (v : Byte) (s : State) : (s.dummyWrite a v).cpu = s.cpu := by
  unfold State.dummyWrite; split <;> rfl

@[simp] theorem State.dummyWrite_params (a : Addr) (v : Byte) (s : State) :
    (s.dummyWrite a v).params = s.params := by
  unfold State.dummyWrite; split <;> rfl

@[simp] theorem State.fetch_cpu (s : State) : (s.fetch).cpu = { s.cpu with pc := s.cpu.pc + 1 } := rfl

@[simp] theorem State.fetch_con (s : State) : (s.fetch).con = s.con.readCycle s.params s.cpu.pc := rfl

@[simp] theorem State.fetch_params (s : State) : (s.fetch).params = s.params := rfl

@[simp] theorem State.push_cpu (v : Byte) (s : State) : (s.push v).cpu = { s.cpu with sp := s.cpu.sp - 1 } :=
  rfl

@[simp] theorem State.push_con (v : Byte) (s : State) : (s.push v).con = s.con.writeCycle s.params (stackAddr s.cpu.sp) v :=
  rfl

@[simp] theorem State.push_params (v : Byte) (s : State) : (s.push v).params = s.params := rfl

@[simp] theorem State.stackRead_cpu (s : State) : (s.stackRead).cpu = s.cpu := rfl

@[simp] theorem State.stackRead_con (s : State) : (s.stackRead).con = s.con.readCycle s.params (stackAddr s.cpu.sp) :=
  rfl

@[simp] theorem State.stackRead_params (s : State) : (s.stackRead).params = s.params := rfl

@[simp] theorem State.pullRow_cpu (s : State) : s.pullRow.cpu = { s.cpu with sp := s.cpu.sp + 1 } := by
  simp [State.pullRow]

@[simp] theorem State.pullRow_params (s : State) : s.pullRow.params = s.params := by
  simp [State.pullRow]

@[simp] theorem State.resetRow_cpu (s : State) : s.resetRow.cpu = { s.cpu with sp := s.cpu.sp - 1 } := by
  simp [State.resetRow]

@[simp] theorem State.resetRow_params (s : State) : s.resetRow.params = s.params := by
  simp [State.resetRow]

@[simp] theorem State.sequenceHead_cpu (s : State) : s.sequenceHead.cpu = s.cpu := by
  simp [State.sequenceHead]

@[simp] theorem State.sequenceHead_params (s : State) : s.sequenceHead.params = s.params := by
  simp [State.sequenceHead]

@[simp] theorem State.afterCheck_cpu (s : State) : (s.afterCheck).cpu = s.cpu.afterCheck s.params.irqMasked :=
  rfl

@[simp] theorem State.afterCheck_con (s : State) : (s.afterCheck).con = s.con := rfl

@[simp] theorem State.afterCheck_params (s : State) : (s.afterCheck).params = s.params := rfl

@[simp] theorem State.withFault_cpu (b : Byte) (s : State) : (s.withFault b).cpu = { s.cpu with fault := some b } :=
  rfl

@[simp] theorem State.withFault_con (b : Byte) (s : State) : (s.withFault b).con = s.con := rfl

@[simp] theorem State.withFault_params (b : Byte) (s : State) : (s.withFault b).params = s.params := rfl

@[simp] theorem State.debugRead_cpu (a : Addr) (s : State) : (s.debugRead a).cpu = s.cpu := rfl

@[simp] theorem State.debugRead_con (a : Addr) (s : State) :
    (s.debugRead a).con = s.con.debugEffect s.params.debugPorts a := rfl

@[simp] theorem State.debugRead_params (a : Addr) (s : State) : (s.debugRead a).params = s.params := rfl

@[simp] theorem State.pressReset_cpu (s : State) : s.pressReset.cpu = { s.cpu with resetReq := true } := rfl

@[simp] theorem State.pressReset_params (s : State) : s.pressReset.params = s.params := rfl

@[simp] theorem State.takeEndOfFrame_cpu (s : State) : s.takeEndOfFrame.cpu = s.cpu := rfl

@[simp] theorem State.takeEndOfFrame_params (s : State) : s.takeEndOfFrame.params = s.params := rfl

@[simp] theorem State.setButtons_cpu (b1 b2 : Byte) (s : State) : (s.setButtons b1 b2).cpu = s.cpu := rfl

@[simp] theorem State.setButtons_params (b1 b2 : Byte) (s : State) : (s.setButtons b1 b2).params = s.params := rfl

@[simp] theorem State.raiseReset_cpu (s : State) : (s.raiseReset).cpu = { s.cpu with resetReq := true } := rfl

@[simp] theorem State.raiseReset_con (s : State) : (s.raiseReset).con = s.con := rfl

@[simp] theorem State.raiseReset_params (s : State) : (s.raiseReset).params = s.params := rfl

@[simp] theorem State.raiseNmi_cpu (s : State) : (s.raiseNmi).cpu = { s.cpu with nmiReq := true } := rfl

@[simp] theorem State.raiseNmi_con (s : State) : (s.raiseNmi).con = s.con := rfl

@[simp] theorem State.raiseNmi_params (s : State) : (s.raiseNmi).params = s.params := rfl

@[simp] theorem State.raiseIrq_cpu (s : State) : (s.raiseIrq).cpu = { s.cpu with irqReq := true } := rfl

@[simp] theorem State.raiseIrq_con (s : State) : (s.raiseIrq).con = s.con := rfl

@[simp] theorem State.raiseIrq_params (s : State) : (s.raiseIrq).params = s.params := rfl

@[simp] theorem Cpu.afterCheck_a (k : IrqMasked) (c : Cpu) : (c.afterCheck k).a = c.a := by
  unfold Cpu.afterCheck; split <;> (try split) <;> rfl

@[simp] theorem Cpu.afterCheck_x (k : IrqMasked) (c : Cpu) : (c.afterCheck k).x = c.x := by
  unfold Cpu.afterCheck; split <;> (try split) <;> rfl

@[simp] theorem Cpu.afterCheck_y (k : IrqMasked) (c : Cpu) : (c.afterCheck k).y = c.y := by
  unfold Cpu.afterCheck; split <;> (try split) <;> rfl

@[simp] theorem Cpu.afterCheck_sp (k : IrqMasked) (c : Cpu) : (c.afterCheck k).sp = c.sp := by
  unfold Cpu.afterCheck; split <;> (try split) <;> rfl

@[simp] theorem Cpu.afterCheck_pc (k : IrqMasked) (c : Cpu) : (c.afterCheck k).pc = c.pc := by
  unfold Cpu.afterCheck; split <;> (try split) <;> rfl

@[simp] theorem Cpu.afterCheck_p (k : IrqMasked) (c : Cpu) : (c.afterCheck k).p = c.p := by
  unfold Cpu.afterCheck; split <;> (try split) <;> rfl

@[simp] theorem Cpu.afterCheck_control (k : IrqMasked) (c : Cpu) : (c.afterCheck k).control = c.control := by
  unfold Cpu.afterCheck; split <;> (try split) <;> rfl

@[simp] theorem Cpu.afterCheck_fault (k : IrqMasked) (c : Cpu) : (c.afterCheck k).fault = c.fault := by
  unfold Cpu.afterCheck; split <;> (try split) <;> rfl

@[simp] theorem Status.setNZ_c (v : Byte) (p : Status) : (p.setNZ v).c = p.c := rfl

@[simp] theorem Status.setNZ_i (v : Byte) (p : Status) : (p.setNZ v).i = p.i := rfl

@[simp] theorem Status.setNZ_d (v : Byte) (p : Status) : (p.setNZ v).d = p.d := rfl

@[simp] theorem Status.setNZ_v (v : Byte) (p : Status) : (p.setNZ v).v = p.v := rfl

@[simp] theorem Status.setNZ_z (v : Byte) (p : Status) : (p.setNZ v).z = (v == 0) := rfl

@[simp] theorem Status.setNZ_n (v : Byte) (p : Status) : (p.setNZ v).n = v.getLsbD 7 := rfl

@[simp] theorem Status.unpack_c (v : Byte) : (Status.unpack v).c = v.getLsbD 0 := rfl

@[simp] theorem Status.unpack_z (v : Byte) : (Status.unpack v).z = v.getLsbD 1 := rfl

@[simp] theorem Status.unpack_i (v : Byte) : (Status.unpack v).i = v.getLsbD 2 := rfl

@[simp] theorem Status.unpack_d (v : Byte) : (Status.unpack v).d = v.getLsbD 3 := rfl

@[simp] theorem Status.unpack_v (v : Byte) : (Status.unpack v).v = v.getLsbD 6 := rfl

@[simp] theorem Status.unpack_n (v : Byte) : (Status.unpack v).n = v.getLsbD 7 := rfl

@[simp] theorem State.afterFetch_zero (s : State) : s.afterFetch 0 = s := rfl

@[simp] theorem State.afterFetch_succ (n : Nat) (s : State) : s.afterFetch (n + 1) = s.fetch.afterFetch n := rfl

@[simp] theorem State.value_def (a : Addr) (s : State) : s.value a = s.con.cycleValue s.params a := rfl

@[simp] theorem State.fetchValue_def (s : State) : s.fetchValue = s.con.cycleValue s.params s.cpu.pc := rfl

@[simp] theorem State.stackValue_def (s : State) : s.stackValue = s.con.cycleValue s.params (stackAddr s.cpu.sp) :=
  rfl

end Sys2Proof.Machine
end

