-- ==== Sys2Proof/Laws/Ops.lean ====
section
/-! SUPPORT. One spec lemma per shared operation: everything it can do to the core, the stored bytes, the
address map, the cycle count and the canonical forms. -/

namespace Sys2Proof.Machine

/-! ## Operations that only read -/

/-- `t` is `s` some `n` read or quiet cycles later: no stored byte and nothing of the address map has changed. -/
structure State.Reads (n : Nat) (s t : State) : Prop where
  alike : s.con.Alike t.con
  params : t.params = s.params
  clock : t.con.clock = s.con.clock + n
  wf : s.con.wf = true → t.con.wf = true

namespace State

theorem Reads.refl (s : State) : State.Reads 0 s s := ⟨.refl _, rfl, rfl, id⟩

theorem Reads.trans {m n : Nat} {s t u : State} (h : State.Reads m s t) (g : State.Reads n t u) :
    State.Reads (m + n) s u :=
  ⟨h.alike.trans g.alike, g.params.trans h.params, by rw [g.clock, h.clock]; omega, fun w => g.wf (h.wf w)⟩

theorem Reads.memoryKept {n : Nat} {s t : State} (h : State.Reads n s t) : s.memoryKept t :=
  fun a => h.alike.peek a

/-- Register updates change nothing of the Console. -/
theorem Reads.of_con {n : Nat} {s t u : State} (h : State.Reads n s t) (hc : u.con = t.con)
    (hp : u.params = t.params) : State.Reads n s u :=
  ⟨hc ▸ h.alike, hp ▸ h.params, hc ▸ h.clock, fun w => hc ▸ h.wf w⟩

theorem Reads.of_start {n : Nat} {s s' t : State} (h : State.Reads n s t) (hc : s.con = s'.con)
    (hp : s.params = s'.params) : State.Reads n s' t :=
  ⟨hc ▸ h.alike, hp ▸ h.params, hc ▸ h.clock, fun w => h.wf (hc ▸ w)⟩

theorem Reads.stackByte {n : Nat} {s t : State} (h : State.Reads n s t) (sp : Byte) :
    t.stackByte sp = s.stackByte sp := h.alike.byteOf _

theorem read_reads (a : Addr) (s : State) : State.Reads 1 s (s.read a) :=
  ⟨Console.readCycle_alike _ _ _, rfl, Console.readCycle_clock _ _ _, Console.readCycle_wf _ _⟩

theorem quiet_reads (s : State) : State.Reads 1 s s.quiet :=
  ⟨Console.quietCycle_alike _ _, rfl, Console.quietCycle_clock _ _, Console.quietCycle_wf _⟩

theorem dummyRead_reads (a : Addr) (s : State) : State.Reads 1 s (s.dummyRead a) := by
  unfold State.dummyRead
  split
  · exact read_reads a s
  · exact quiet_reads s

theorem fetch_reads (s : State) : State.Reads 1 s s.fetch := (read_reads _ s).of_con rfl rfl

theorem afterFetch_reads : ∀ (n : Nat) (s : State), State.Reads n s (s.afterFetch n)
  | 0, s => .refl s
  | n + 1, s => by
    have h := (fetch_reads s).trans (afterFetch_reads n s.fetch)
    rwa [Nat.add_comm] at h

theorem afterFetch_cpu : ∀ (n : Nat) (s : State),
    (s.afterFetch n).cpu = { s.cpu with pc := s.cpu.pc + BitVec.ofNat 16 n }
  | 0, s => by simp
  | n + 1, s => by
    simp only [State.afterFetch_succ, afterFetch_cpu n, State.fetch_cpu, BitVec.add_assoc]
    congr 2
    rw [Nat.add_comm n 1, BitVec.ofNat_add]
    rfl

/-- Fetch number `n` reads the byte `n` places after PC. -/
theorem fetchedByte_of_peek {s : State} {n : Nat} {v : Byte}
    (h : s.con.peek (s.cpu.pc + BitVec.ofNat 16 n) = some v) : s.fetchedByte n = v := by
  unfold State.fetchedByte
  rw [State.fetchValue_def, afterFetch_cpu]
  exact Console.cycleValue_of_peek (by rw [(afterFetch_reads n s).alike.peek]; exact h)

/-- The byte a read cycle gets where a stored byte answers. -/
theorem value_of_peek {s : State} {a : Addr} {v : Byte} (h : s.con.peek a = some v) : s.value a = v :=
  Console.cycleValue_of_peek h

theorem stackValue_eq (s : State) : s.stackValue = s.stackByte s.cpu.sp := Console.cycleValue_stackAddr _ _ _

/-- The number of cycles between the operand fetch and the effective access. -/
def addressCount (writes : Bool) (m : Mem) (s : State) : Nat :=
  match m with
  | .zp _ => 0
  | .abs _ => 0
  | .zpx _ => 1
  | .zpy _ => 1
  | .abx _ => if writes || s.crosses m then 1 else 0
  | .aby _ => if writes || s.crosses m then 1 else 0
  | .izx _ => 3
  | .izy _ => if writes || s.crosses m then 3 else 2

/-- The address cycles only read, and touch no register. -/
theorem addressCycles_reads (writes : Bool) (m : Mem) (s : State) :
    State.Reads (addressCount writes m s) s (s.addressCycles writes m) := by
  unfold State.addressCycles addressCount
  cases m with
  | zp d => exact .refl s
  | abs w => exact .refl s
  | zpx d => exact dummyRead_reads _ s
  | zpy d => exact dummyRead_reads _ s
  | abx w => dsimp only; split
             · exact dummyRead_reads _ s
             · exact .refl s
  | aby w => dsimp only; split
             · exact dummyRead_reads _ s
             · exact .refl s
  | izx d => exact ((dummyRead_reads _ s).trans (read_reads _ _)).trans (read_reads _ _)
  | izy d => dsimp only; split
             · exact ((read_reads _ s).trans (read_reads _ _)).trans (dummyRead_reads _ _)
             · exact (read_reads _ s).trans (read_reads _ _)

@[simp] theorem addressCycles_cpu (writes : Bool) (m : Mem) (s : State) :
    (s.addressCycles writes m).cpu = s.cpu := by
  unfold State.addressCycles
  cases m <;> simp <;> split <;> simp

@[simp] theorem addressCycles_params (writes : Bool) (m : Mem) (s : State) :
    (s.addressCycles writes m).params = s.params := (addressCycles_reads writes m s).params

theorem operandRead_reads (m : Mem) (s : State) :
    State.Reads (addressCount false m s + 1) s (s.operandRead m) :=
  (addressCycles_reads false m s).trans (read_reads _ _)

@[simp] theorem operandRead_cpu (m : Mem) (s : State) : (s.operandRead m).cpu = s.cpu := by
  simp [State.operandRead]

/-- The operand of a read-class instruction is the stored byte at its effective address. -/
theorem operand_of_peek {m : Mem} {s : State} {v : Byte} (h : s.con.peek (s.ea m) = some v) :
    s.operand m = v :=
  value_of_peek (by rw [(addressCycles_reads false m s).alike.peek]; exact h)

theorem oldByte_of_peek {m : Mem} {s : State} {v : Byte} (h : s.con.peek (s.ea m) = some v) :
    s.oldByte m = v :=
  value_of_peek (by rw [(addressCycles_reads true m s).alike.peek]; exact h)

/-- A zero-page pointer as the debug read of its two bytes shows it. -/
theorem zeroPageWord_of_peek {c : Console} {p l h : Byte} (hl : c.peek (zeroPage p) = some l)
    (hh : c.peek (zeroPage (p + 1)) = some h) : c.zeroPageWord p = word h l := by
  simp only [Console.peek, Console.cellOf_zeroPage, Option.map_some, Option.some.injEq, Console.byteOf] at hl hh
  rw [Console.zeroPageWord, hl, hh]

/-! ## Stores -/

/-- One write cycle. -/
theorem write_storedOnly (a : Addr) (v : Byte) (s : State) (hw : s.con.wf = true) :
    s.storedOnly a v (s.write a v) := by
  have hb := fun cell => Console.writeCycle_byteOf s.params a v s.con cell hw
  refine ⟨hb, fun hr b => ?_⟩
  have hc : (s.con.writeCycle s.params a v).cellOf b = s.con.cellOf b := Console.writeCycle_cellOf hr _ _ _
  simp only [Console.peek, State.write_con, hc, hb]
  cases hcell : s.con.cellOf b with
  | none => simp; intro h1 h2; exact h1 h2.symm
  | some cell =>
    by_cases he : s.con.storeCell a = some cell
    · simp [he]
    · simp [he, Ne.symm he]

theorem storedOnly_of_alike {a : Addr} {v : Byte} {s s' t : State} (h : s.con.Alike s'.con)
    (hs : s'.storedOnly a v t) : s.storedOnly a v t := by
  refine ⟨fun cell => ?_, fun hr b => ?_⟩
  · rw [hs.1, h.storeCell, h.byteOf]
  · rw [hs.2 (fun hh => hr ((h.bankRegister a).1 hh)), h.storeCell, h.cellOf, h.peek]

/-- Writing the byte that is there leaves every stored byte as it is. -/
theorem writeCycle_back {c : Console} {p : Params} {a : Addr} {v : Byte} (hw : c.wf = true)
    (hv : ∀ cell, c.storeCell a = some cell → v = c.byteOf cell) (cell : Cell) :
    (c.writeCycle p a v).byteOf cell = c.byteOf cell := by
  rw [Console.writeCycle_byteOf _ _ _ _ _ hw]
  split
  · rename_i h; exact hv cell h
  · rfl

theorem cellOf_of_storeCell {c : Console} {a : Addr} {cell : Cell} (h : c.storeCell a = some cell) :
    c.cellOf a = some cell := by
  unfold Console.storeCell at h
  split at h
  · cases h
  · exact h

/-- Which register a cell is written through does not depend on bank registers for a write below them. -/
theorem writeCycle_storeCell {c : Console} {p : Params} {a : Addr} {v : Byte} :
    (c.writeCycle p a v).storeCell a = c.storeCell a := by
  by_cases hr : c.bankRegister a
  · rw [Console.storeCell_of_bankRegister hr, Console.storeCell_of_bankRegister]
    exact ⟨(Console.writeCycle_kind _ _ _ _).trans hr.1, hr.2⟩
  · unfold Console.storeCell
    rw [Console.writeCycle_cellOf hr]

/-- Two writes of one address in a row: the second counts. -/
theorem write_after_back {s s' : State} {a : Addr} {v : Byte}
    (hb : ∀ cell, s'.con.byteOf cell = s.con.byteOf cell) (hs : s'.con.storeCell a = s.con.storeCell a)
    (hk : s'.con.cart.kind = s.con.cart.kind)
    (hc : ¬ s.con.bankRegister a → ∀ b, s'.con.cellOf b = s.con.cellOf b) (hw : s'.con.wf = true) :
    s.storedOnly a v (s'.write a v) := by
  have h := write_storedOnly a v s' hw
  refine ⟨fun cell => ?_, fun hr b => ?_⟩
  · rw [h.1, hs, hb]
  · have hr' : ¬ s'.con.bankRegister a := fun hh => hr ⟨hk ▸ hh.1, hh.2⟩
    rw [h.2 hr', hs, hc hr]
    simp only [Console.peek, hc hr, hb]

theorem write_wf (a : Addr) (v : Byte) {s : State} (h : s.con.wf = true) : (s.write a v).con.wf = true :=
  Console.writeCycle_wf _ _ _ h

theorem dummyWrite_wf (a : Addr) (v : Byte) {s : State} (h : s.con.wf = true) : (s.dummyWrite a v).con.wf = true := by
  unfold State.dummyWrite
  split
  · exact write_wf a v h
  · exact (quiet_reads s).wf h

@[simp] theorem dummyWrite_clock (a : Addr) (v : Byte) (s : State) :
    (s.dummyWrite a v).con.clock = s.con.clock + 1 := by
  unfold State.dummyWrite
  split
  · exact Console.writeCycle_clock _ _ _ _
  · exact Console.quietCycle_clock _ _

/-- The cycles of a write-class instruction store one byte. -/
theorem operandWrite_storedOnly (m : Mem) (v : Byte) (s : State) (hw : s.con.wf = true) :
    s.storedOnly (s.ea m) v (s.operandWrite m v) :=
  storedOnly_of_alike (addressCycles_reads true m s).alike
    (write_storedOnly _ v _ ((addressCycles_reads true m s).wf hw))

@[simp] theorem operandWrite_cpu (m : Mem) (v : Byte) (s : State) : (s.operandWrite m v).cpu = s.cpu := by
  simp [State.operandWrite]

@[simp] theorem operandWrite_params (m : Mem) (v : Byte) (s : State) : (s.operandWrite m v).params = s.params := by
  simp [State.operandWrite]

theorem operandWrite_clock (m : Mem) (v : Byte) (s : State) :
    (s.operandWrite m v).con.clock = s.con.clock + addressCount true m s + 1 := by
  simp [State.operandWrite, (addressCycles_reads true m s).clock]

theorem operandWrite_wf (m : Mem) (v : Byte) {s : State} (h : s.con.wf = true) :
    (s.operandWrite m v).con.wf = true := write_wf _ v ((addressCycles_reads true m s).wf h)

/-- The cycles of a modify-class instruction store one byte, the new one, whatever the dummy write did. -/
theorem operandModify_storedOnly (m : Mem) (new : Byte) (s : State) (hw : s.con.wf = true) :
    s.storedOnly (s.ea m) new (s.operandModify m new) := by
  have h1 := (addressCycles_reads true m s).trans (read_reads (s.ea m) _)
  have hw1 := h1.wf hw
  have hold : ∀ cell, s.con.storeCell (s.ea m) = some cell → s.oldByte m = s.con.byteOf cell := fun cell hc =>
    oldByte_of_peek (by simp [Console.peek, cellOf_of_storeCell hc])
  refine storedOnly_of_alike h1.alike ?_
  unfold State.operandModify State.dummyWrite
  split
  · refine write_after_back (s := (s.addressCycles true m).read (s.ea m)) ?_ ?_ ?_ ?_ ?_
    · intro cell
      refine writeCycle_back hw1 (fun cell hc => ?_) cell
      rw [h1.alike.byteOf]
      exact hold cell (by rw [← h1.alike.storeCell]; exact hc)
    · exact writeCycle_storeCell
    · exact Console.writeCycle_kind _ _ _ _
    · intro hr b
      exact Console.writeCycle_cellOf hr _ _ _
    · exact write_wf _ _ hw1
  · have h2 := quiet_reads ((s.addressCycles true m).read (s.ea m))
    exact write_after_back (fun cell => h2.alike.byteOf cell) (h2.alike.storeCell _) h2.alike.kind
      (fun _ b => h2.alike.cellOf b) (h2.wf hw1)

@[simp] theorem operandModify_cpu (m : Mem) (new : Byte) (s : State) : (s.operandModify m new).cpu = s.cpu := by
  simp [State.operandModify]

@[simp] theorem operandModify_params (m : Mem) (new : Byte) (s : State) :
    (s.operandModify m new).params = s.params := by
  simp [State.operandModify]

theorem operandModify_clock (m : Mem) (new : Byte) (s : State) :
    (s.operandModify m new).con.clock = s.con.clock + addressCount true m s + 3 := by
  simp [State.operandModify, (addressCycles_reads true m s).clock]

theorem operandModify_wf (m : Mem) (new : Byte) {s : State} (h : s.con.wf = true) :
    (s.operandModify m new).con.wf = true := by
  have h1 := (addressCycles_reads true m s).trans (read_reads (s.ea m) _)
  exact write_wf _ _ (dummyWrite_wf _ _ (h1.wf h))

/-! ## Pushes -/

theorem not_bankRegister_stack (sp : Byte) (c : Console) : ¬ c.bankRegister (stackAddr sp) := by
  have h := sp.isLt
  rintro ⟨-, h8⟩
  rw [Console.stackAddr_toNat] at h8
  omega

theorem storeCell_stack (sp : Byte) (c : Console) :
    c.storeCell (stackAddr sp) = some (.ram (stackAddr sp).toNat) := by
  simp [Console.storeCell, Console.cellOf_stackAddr]

theorem stackAddr_inj {a b : Byte} (h : (stackAddr a).toNat = (stackAddr b).toNat) : a = b := by
  rw [Console.stackAddr_toNat, Console.stackAddr_toNat] at h
  exact BitVec.eq_of_toNat_eq (by omega)

/-- A push stores one byte of the stack page. -/
theorem push_byteOf (v : Byte) (s : State) (hw : s.con.wf = true) (cell : Cell) :
    (s.push v).con.byteOf cell = if cell = .ram (stackAddr s.cpu.sp).toNat then v else s.con.byteOf cell := by
  rw [State.push_con, Console.writeCycle_byteOf _ _ _ _ _ hw, storeCell_stack]
  simp [eq_comm]

theorem push_cellOf (v : Byte) (s : State) (a : Addr) : (s.push v).con.cellOf a = s.con.cellOf a :=
  Console.writeCycle_cellOf (not_bankRegister_stack _ _) _ _ _

theorem push_wf (v : Byte) {s : State} (hw : s.con.wf = true) : (s.push v).con.wf = true :=
  Console.writeCycle_wf _ _ _ hw

@[simp] theorem push_clock (v : Byte) (s : State) : (s.push v).con.clock = s.con.clock + 1 := by simp

@[simp] theorem byte_sub_sub (x : Byte) (a b : Byte) : x - a - b = x - (a + b) := by
  bv_omega

/-- One push, as `pushedOnly` says it. -/
theorem push_pushedOnly (v : Byte) (s : State) (hw : s.con.wf = true) :
    s.pushedOnly s.cpu.sp [v] (s.push v) := by
  refine ⟨fun k hk => ?_, fun cell hc => ?_, push_cellOf v s⟩
  · have hk0 : k = 0 := by simpa using hk
    subst hk0
    simp [State.stackByte, Console.writeCycle_byteOf, hw, storeCell_stack]
  · rw [push_byteOf v s hw, if_neg]
    simpa using hc 0

/-- A push after pushes. -/
theorem pushedOnly_push {s t : State} {vs : List Byte} (v : Byte) (h : s.pushedOnly s.cpu.sp vs t)
    (hlen : vs.length < 256) (hsp : t.cpu.sp = s.cpu.sp - BitVec.ofNat 8 vs.length) (hw : t.con.wf = true) :
    s.pushedOnly s.cpu.sp (vs ++ [v]) (t.push v) := by
  refine ⟨fun k hk => ?_, fun cell hc => ?_, fun a => (push_cellOf v t a).trans (h.2.2 a)⟩
  · simp only [List.length_append, List.length_singleton] at hk
    unfold State.stackByte
    rw [push_byteOf v t hw, hsp]
    by_cases hkl : k = vs.length
    · subst hkl
      simp
    · have hne : Cell.ram (stackAddr (s.cpu.sp - BitVec.ofNat 8 k)).toNat ≠
          .ram (stackAddr (s.cpu.sp - BitVec.ofNat 8 vs.length)).toNat := by
        intro he
        injection he with he
        have he := stackAddr_inj he
        have : (BitVec.ofNat 8 k) = BitVec.ofNat 8 vs.length := by bv_omega
        have := congrArg BitVec.toNat this
        simp only [BitVec.toNat_ofNat] at this
        omega
      rw [if_neg hne, List.getElem_append_left (by omega)]
      exact h.1 k (by omega)
  · rw [push_byteOf v t hw, hsp, if_neg (hc vs.length (by simp))]
    exact h.2.1 cell (fun k hk => hc k (by simp; omega))

/-- Reads before pushes. -/
theorem pushedOnly_of_alike {s s' t : State} {sp : Byte} {vs : List Byte} (h : s.con.Alike s'.con)
    (g : s'.pushedOnly sp vs t) : s.pushedOnly sp vs t :=
  ⟨g.1, fun cell hc => (g.2.1 cell hc).trans (h.byteOf cell), fun a => (g.2.2 a).trans (h.cellOf a)⟩

/-- Reads after pushes. -/
theorem pushedOnly_then_alike {s t t' : State} {sp : Byte} {vs : List Byte} (g : s.pushedOnly sp vs t)
    (h : t.con.Alike t'.con) : s.pushedOnly sp vs t' :=
  ⟨fun k hk => (h.byteOf _).trans (g.1 k hk), fun cell hc => (h.byteOf cell).trans (g.2.1 cell hc),
    fun a => (h.cellOf a).trans (g.2.2 a)⟩

/-- Pushes change no byte of ROM. -/
theorem pushedOnly_peek_rom {s t : State} {sp : Byte} {vs : List Byte} (g : s.pushedOnly sp vs t) {a : Addr}
    (ha : 0x8000 ≤ a.toNat) : t.con.peek a = s.con.peek a := by
  simp only [Console.peek, g.2.2 a, Console.cellOf_rom ha, Option.map_some]
  rw [g.2.1 _ (fun k _ => by simp)]

/-! ## Vectors -/

/-- A vector's bytes are stored bytes (they lie in cartridge space above 0x8000). -/
theorem peek_rom {a : Addr} (h : 0x8000 ≤ a.toNat) (c : Console) :
    c.peek a = some (c.byteOf (.prgRom (c.cart.prgOffset a))) := by
  simp [Console.peek, Console.cellOf_rom h]

theorem enterVector_reads (vec : Addr) (s : State) : State.Reads 2 s (s.enterVector vec) :=
  (((read_reads vec s).of_con (u := (s.read vec).maskIrq) rfl rfl).trans (read_reads (vec + 1) _)).of_con rfl rfl

theorem enterVector_cpu {vec : Addr} {s : State} {l h : Byte} (hl : s.con.peek vec = some l)
    (hh : s.con.peek (vec + 1) = some h) :
    (s.enterVector vec).cpu = { s.cpu with p := { s.cpu.p with i := true }, pc := word h l } := by
  have h1 : s.value vec = l := value_of_peek hl
  have h2 : ((s.read vec).maskIrq).value (vec + 1) = h :=
    value_of_peek (by rw [State.maskIrq_con, (read_reads vec s).alike.peek]; exact hh)
  unfold State.enterVector
  simp only [h1, h2]
  simp

/-! ## Taking an interrupt and returning from one -/

/-- Taking an interrupt, all of it. -/
theorem takeInterrupt_spec (b54 : BitVec 2) {vec : Addr} (hv : 0x8000 ≤ vec.toNat) (hv1 : 0x8000 ≤ (vec + 1).toNat)
    (s : State) (hw : s.con.wf = true) :
    ∃ l h, s.con.peek vec = some l ∧ s.con.peek (vec + 1) = some h ∧
      (s.takeInterrupt b54 vec).cpu = { s.cpu with
        sp := s.cpu.sp - 3, p := { s.cpu.p with i := true }, pc := word h l } ∧
      s.pushedOnly s.cpu.sp [hi s.cpu.pc, lo s.cpu.pc, s.cpu.p.pack b54] (s.takeInterrupt b54 vec) := by
  have g1 := push_pushedOnly (hi s.cpu.pc) s hw
  have g2 := pushedOnly_push (lo s.cpu.pc) g1 (by simp) (by simp) (push_wf _ hw)
  have g3 := pushedOnly_push (s.cpu.p.pack b54) g2 (by simp) (by simp) (push_wf _ (push_wf _ hw))
  refine ⟨_, _, peek_rom hv _, peek_rom hv1 _, ?_, ?_⟩
  · show (State.enterVector vec (State.push (s.cpu.p.pack b54) _)).cpu = _
    rw [enterVector_cpu ((pushedOnly_peek_rom g3 hv).trans (peek_rom hv _))
      ((pushedOnly_peek_rom g3 hv1).trans (peek_rom hv1 _))]
    simp
  · exact pushedOnly_then_alike g3 (enterVector_reads vec _).alike

theorem takeInterrupt_params (b54 : BitVec 2) (vec : Addr) (s : State) :
    (s.takeInterrupt b54 vec).params = s.params := rfl

theorem takeInterrupt_clock (b54 : BitVec 2) (vec : Addr) (s : State) :
    (s.takeInterrupt b54 vec).con.clock = s.con.clock + 5 := by
  unfold State.takeInterrupt
  rw [(enterVector_reads vec _).clock]
  simp

theorem takeInterrupt_wf (b54 : BitVec 2) (vec : Addr) {s : State} (hw : s.con.wf = true) :
    (s.takeInterrupt b54 vec).con.wf = true :=
  (enterVector_reads vec _).wf (push_wf _ (push_wf _ (push_wf _ hw)))

theorem pullRow_reads (s : State) : State.Reads 1 s s.pullRow := (dummyRead_reads _ s).of_con rfl rfl

theorem stackRead_reads (s : State) : State.Reads 1 s s.stackRead := read_reads _ s

@[simp] theorem byte_add_add (x : Byte) (a b : Byte) : x + a + b = x + (a + b) := by
  bv_omega

/-- The state after rows 3 and 4 of RTI. -/
def rtiFlags (s : State) : State := (s.pullRow.stackRead.setP (Status.unpack s.pullRow.stackValue)).incSp

theorem rtiFlags_reads (s : State) : State.Reads 2 s (rtiFlags s) :=
  Reads.of_con ((pullRow_reads s).trans (stackRead_reads _)) rfl rfl

theorem rtiLow_reads (s : State) : State.Reads 3 s (rtiFlags s).stackRead.incSp :=
  Reads.of_con ((rtiFlags_reads s).trans (stackRead_reads _)) rfl rfl

theorem returnFromInterrupt_eq (s : State) :
    s.returnFromInterrupt = (rtiFlags s).stackRead.incSp.stackRead.setPc
      (word (rtiFlags s).stackRead.incSp.stackValue (rtiFlags s).stackValue) := rfl

/-- Returning from an interrupt only reads. -/
theorem returnFromInterrupt_reads (s : State) : State.Reads 4 s s.returnFromInterrupt :=
  Reads.of_con ((rtiLow_reads s).trans (stackRead_reads _)) rfl rfl

/-- Returning from an interrupt: flags and PC from the stack. -/
theorem returnFromInterrupt_cpu (s : State) :
    s.returnFromInterrupt.cpu = { s.cpu with
      sp := s.cpu.sp + 3
      p := Status.unpack (s.stackByte (s.cpu.sp + 1))
      pc := word (s.stackByte (s.cpu.sp + 3)) (s.stackByte (s.cpu.sp + 2)) } := by
  have e1 : s.pullRow.stackValue = s.stackByte (s.cpu.sp + 1) := by
    rw [stackValue_eq, (pullRow_reads s).stackByte, State.pullRow_cpu]
  have c2 : (rtiFlags s).cpu =
      { s.cpu with sp := s.cpu.sp + 2, p := Status.unpack (s.stackByte (s.cpu.sp + 1)) } := by
    unfold rtiFlags
    rw [e1]
    simp
  have e2 : (rtiFlags s).stackValue = s.stackByte (s.cpu.sp + 2) := by
    rw [stackValue_eq, (rtiFlags_reads s).stackByte, c2]
  have e3 : (rtiFlags s).stackRead.incSp.stackValue = s.stackByte (s.cpu.sp + 3) := by
    rw [stackValue_eq, (rtiLow_reads s).stackByte]
    simp [c2]
  rw [returnFromInterrupt_eq, e2, e3]
  simp [c2]

/-! ## Hardware sequences -/

theorem sequenceHead_reads (s : State) : State.Reads 2 s s.sequenceHead :=
  (dummyRead_reads _ s).trans (dummyRead_reads _ _)

theorem resetRow_reads (s : State) : State.Reads 1 s s.resetRow := (dummyRead_reads _ s).of_con rfl rfl

theorem runReset_reads (s : State) : State.Reads 7 s (s.runSequence .reset) :=
  ((((sequenceHead_reads s).trans (resetRow_reads _)).trans (resetRow_reads _)).trans (resetRow_reads _)).trans
    (enterVector_reads _ _)

theorem runReset_cpu (s : State) :
    ∃ l h, s.con.peek 0xFFFC = some l ∧ s.con.peek 0xFFFD = some h ∧
      (s.runSequence .reset).cpu = { s.cpu with
        sp := s.cpu.sp - 3, p := { s.cpu.p with i := true }, pc := word h l } := by
  have hr := (((sequenceHead_reads s).trans (resetRow_reads _)).trans (resetRow_reads _)).trans (resetRow_reads _)
  refine ⟨_, _, peek_rom (by decide) _, peek_rom (by decide) _, ?_⟩
  show (State.enterVector _ _).cpu = _
  rw [enterVector_cpu (by rw [hr.alike.peek]; exact peek_rom (by decide) _)
    (by rw [hr.alike.peek]; exact peek_rom (by decide) _)]
  simp
  rfl

/-- An IRQ or NMI sequence is two dummy reads and the taking of an interrupt. -/
theorem runSequence_eq {q : Seq} (hq : q ≠ .reset) (s : State) :
    s.runSequence q = s.sequenceHead.takeInterrupt s.params.pushBitsHw (vectorOf q) := by
  cases q <;> first | rfl | exact absurd rfl hq

theorem runSequence_params (q : Seq) (s : State) : (s.runSequence q).params = s.params := by
  cases q with
  | reset => exact (runReset_reads s).params
  | instr => rw [runSequence_eq (by decide), takeInterrupt_params, State.sequenceHead_params]
  | irq => rw [runSequence_eq (by decide), takeInterrupt_params, State.sequenceHead_params]
  | nmi => rw [runSequence_eq (by decide), takeInterrupt_params, State.sequenceHead_params]

theorem runSequence_wf (q : Seq) {s : State} (hw : s.con.wf = true) : (s.runSequence q).con.wf = true := by
  by_cases hq : q = .reset
  · subst hq; exact (runReset_reads s).wf hw
  · rw [runSequence_eq hq]
    exact takeInterrupt_wf _ _ ((sequenceHead_reads s).wf hw)

/-! ## Control transfer -/

/-- A taken branch: where it goes, how long it takes. -/
theorem takeBranch_cpu (d : Byte) (s : State) :
    (s.takeBranch d).cpu = { s.cpu with pc := branchTarget s.cpu.pc d } := by
  unfold State.takeBranch
  simp only
  split
  · simp
  · rename_i h
    have hh : hi (branchTarget s.cpu.pc d) = hi s.cpu.pc := by simpa [branchCrosses] using h
    have : branchUncorrected s.cpu.pc d = branchTarget s.cpu.pc d := by
      unfold branchUncorrected
      rw [← hh, word_hi_lo]
    simp [this]

theorem takeBranch_reads (d : Byte) (s : State) :
    State.Reads (if branchCrosses s.cpu.pc d then 2 else 1) s (s.takeBranch d) := by
  have h3 : State.Reads 1 s ((s.dummyRead s.cpu.pc).setPc (branchUncorrected s.cpu.pc d)) :=
    Reads.of_con (dummyRead_reads s.cpu.pc s) rfl rfl
  unfold State.takeBranch
  simp only
  split
  · exact Reads.of_con (h3.trans (dummyRead_reads (branchUncorrected s.cpu.pc d) _)) rfl rfl
  · exact h3

theorem jumpIndirect_reads (w : Addr) (s : State) : State.Reads 2 s (s.jumpIndirect w) :=
  ((read_reads w s).trans (read_reads _ _)).of_con rfl rfl

theorem jumpIndirect_cpu (w : Addr) (s : State) :
    (s.jumpIndirect w).cpu =
      { s.cpu with pc := word ((s.read w).value (pointerHigh w)) (s.value w) } := rfl

/-- The state of a subroutine call after its pushes. -/
def callPushed (s : State) : State := ((s.dummyRead (stackAddr s.cpu.sp)).push (hi s.cpu.pc)).push (lo s.cpu.pc)

theorem callPushed_cpu (s : State) : (callPushed s).cpu = { s.cpu with sp := s.cpu.sp - 2 } := by
  simp [callPushed]

theorem callSubroutine_eq (low : Byte) (s : State) :
    s.callSubroutine low =
      ((callPushed s).read (callPushed s).cpu.pc).setPc (word ((callPushed s).value (callPushed s).cpu.pc) low) := rfl

theorem callPushed_pushedOnly (s : State) (hw : s.con.wf = true) :
    s.pushedOnly s.cpu.sp [hi s.cpu.pc, lo s.cpu.pc] (callPushed s) := by
  have h0 := dummyRead_reads (stackAddr s.cpu.sp) s
  have hw0 := h0.wf hw
  have g1 := push_pushedOnly (hi s.cpu.pc) (s.dummyRead (stackAddr s.cpu.sp)) hw0
  have g2 := pushedOnly_push (lo s.cpu.pc) g1 (by simp) (by simp) (push_wf _ hw0)
  rw [State.dummyRead_cpu] at g2
  exact pushedOnly_of_alike h0.alike g2

/-- A subroutine call: the pushes, then the third byte read where PC stands, whatever answers there. -/
theorem callSubroutine_spec (low : Byte) (s : State) (hw : s.con.wf = true) :
    (s.callSubroutine low).cpu =
      { s.cpu with sp := s.cpu.sp - 2, pc := word ((callPushed s).value s.cpu.pc) low } ∧
    s.pushedOnly s.cpu.sp [hi s.cpu.pc, lo s.cpu.pc] (s.callSubroutine low) ∧
    (∀ v, (s.callSubroutine low).con.peek s.cpu.pc = some v → (callPushed s).value s.cpu.pc = v) := by
  have hr := (read_reads (callPushed s).cpu.pc (callPushed s)).alike
  have hpc : (callPushed s).cpu.pc = s.cpu.pc := by rw [callPushed_cpu]
  refine ⟨?_, pushedOnly_then_alike (callPushed_pushedOnly s hw) hr, fun v hv => ?_⟩
  · rw [callSubroutine_eq, hpc]
    simp [callPushed_cpu]
  · rw [callSubroutine_eq] at hv
    exact value_of_peek ((hr.peek s.cpu.pc).symm.trans hv)

theorem callSubroutine_params (low : Byte) (s : State) : (s.callSubroutine low).params = s.params := by
  simp [State.callSubroutine]

theorem callSubroutine_clock (low : Byte) (s : State) : (s.callSubroutine low).con.clock = s.con.clock + 4 := by
  simp [State.callSubroutine, (dummyRead_reads _ s).clock]

theorem callSubroutine_wf (low : Byte) {s : State} (hw : s.con.wf = true) : (s.callSubroutine low).con.wf = true :=
  (read_reads _ _).wf (push_wf _ (push_wf _ ((dummyRead_reads _ s).wf hw)))

/-- The state after rows 2 to 4 of RTS. -/
def rtsLow (s : State) : State := (s.dummyRead s.cpu.pc).pullRow.stackRead.incSp

/-- The state after row 5 of RTS. -/
def rtsHigh (s : State) : State :=
  (rtsLow s).stackRead.setPc (word (rtsLow s).stackValue ((s.dummyRead s.cpu.pc).pullRow).stackValue)

theorem rtsPull_reads (s : State) : State.Reads 2 s (s.dummyRead s.cpu.pc).pullRow :=
  (dummyRead_reads _ s).trans (pullRow_reads _)

theorem rtsLow_reads (s : State) : State.Reads 3 s (rtsLow s) :=
  Reads.of_con ((rtsPull_reads s).trans (stackRead_reads _)) rfl rfl

theorem rtsHigh_reads (s : State) : State.Reads 4 s (rtsHigh s) :=
  Reads.of_con ((rtsLow_reads s).trans (stackRead_reads _)) rfl rfl

theorem returnFromSubroutine_eq (s : State) :
    s.returnFromSubroutine = ((rtsHigh s).dummyRead (rtsHigh s).cpu.pc).incPc := rfl

/-- A return from a subroutine only reads. -/
theorem returnFromSubroutine_reads (s : State) : State.Reads 5 s s.returnFromSubroutine :=
  Reads.of_con ((rtsHigh_reads s).trans (dummyRead_reads _ _)) rfl rfl

/-- A return from a subroutine: PC from the stack, one further. -/
theorem returnFromSubroutine_cpu (s : State) :
    s.returnFromSubroutine.cpu = { s.cpu with
      sp := s.cpu.sp + 2
      pc := word (s.stackByte (s.cpu.sp + 2)) (s.stackByte (s.cpu.sp + 1)) + 1 } := by
  have e1 : ((s.dummyRead s.cpu.pc).pullRow).stackValue = s.stackByte (s.cpu.sp + 1) := by
    rw [stackValue_eq, (rtsPull_reads s).stackByte]; simp
  have c2 : (rtsLow s).cpu = { s.cpu with sp := s.cpu.sp + 2 } := by simp [rtsLow]
  have e2 : (rtsLow s).stackValue = s.stackByte (s.cpu.sp + 2) := by
    rw [stackValue_eq, (rtsLow_reads s).stackByte, c2]
  have c3 : (rtsHigh s).cpu = { s.cpu with
      sp := s.cpu.sp + 2
      pc := word (s.stackByte (s.cpu.sp + 2)) (s.stackByte (s.cpu.sp + 1)) } := by
    unfold rtsHigh
    rw [e1, e2]
    simp [c2]
  rw [returnFromSubroutine_eq]
  simp [c3]

/-! ## Stack instructions -/

theorem pushRows_spec (reg : Cpu → Byte) (s : State) (hw : s.con.wf = true) :
    (s.pushRows reg).cpu = { s.cpu with sp := s.cpu.sp - 1 } ∧
      s.pushedOnly s.cpu.sp [reg s.cpu] (s.pushRows reg) := by
  have h0 := dummyRead_reads s.cpu.pc s
  refine ⟨by simp [State.pushRows], pushedOnly_of_alike h0.alike ?_⟩
  have g := push_pushedOnly (reg s.cpu) (s.dummyRead s.cpu.pc) (h0.wf hw)
  rw [State.dummyRead_cpu] at g
  exact g

theorem pushRows_params (reg : Cpu → Byte) (s : State) : (s.pushRows reg).params = s.params := by
  simp [State.pushRows]

theorem pushRows_clock (reg : Cpu → Byte) (s : State) : (s.pushRows reg).con.clock = s.con.clock + 2 := by
  simp [State.pushRows, (dummyRead_reads _ s).clock]

theorem pushRows_wf (reg : Cpu → Byte) {s : State} (hw : s.con.wf = true) : (s.pushRows reg).con.wf = true :=
  push_wf _ ((dummyRead_reads _ s).wf hw)

theorem pullRows_reads (op : Byte → Cpu → Cpu) (s : State) : State.Reads 3 s (s.pullRows op) :=
  (((dummyRead_reads _ s).trans (pullRow_reads _)).trans (stackRead_reads _)).of_con rfl rfl

theorem pullRows_cpu (op : Byte → Cpu → Cpu) (s : State) :
    (s.pullRows op).cpu = op (s.stackByte (s.cpu.sp + 1)) { s.cpu with sp := s.cpu.sp + 1 } := by
  have h1 := (dummyRead_reads s.cpu.pc s).trans (pullRow_reads _)
  have e1 : ((s.dummyRead s.cpu.pc).pullRow).stackValue = s.stackByte (s.cpu.sp + 1) := by
    rw [stackValue_eq, h1.stackByte]; simp
  unfold State.pullRows
  simp only [e1]
  simp

theorem interruptReturn_reads (s : State) : State.Reads 5 s s.interruptReturn :=
  (dummyRead_reads _ s).trans (returnFromInterrupt_reads _)

theorem interruptReturn_cpu (s : State) :
    s.interruptReturn.cpu = { s.cpu with
      sp := s.cpu.sp + 3
      p := Status.unpack (s.stackByte (s.cpu.sp + 1))
      pc := word (s.stackByte (s.cpu.sp + 3)) (s.stackByte (s.cpu.sp + 2)) } := by
  have h := dummyRead_reads s.cpu.pc s
  unfold State.interruptReturn
  rw [returnFromInterrupt_cpu]
  simp only [h.stackByte, State.dummyRead_cpu]

end State

/-! ## The access classes -/

/-- A read-class instruction with a memory operand always completes. -/
theorem readClass_spec (op : Byte → Cpu → Cpu) (m : Mem) (s : State) :
    ∃ t, readClass op m s = .next t ∧ t.cpu = op (s.operand m) s.cpu ∧
      State.Reads (State.addressCount false m s + 1) s t :=
  ⟨_, rfl, by simp, (State.operandRead_reads m s).of_con rfl rfl⟩

/-- A write-class instruction always completes. -/
theorem writeClass_spec (reg : Cpu → Byte) (m : Mem) (s : State) :
    ∃ t, writeClass reg m s = .next t ∧ t = s.operandWrite m (reg s.cpu) := ⟨_, rfl, rfl⟩

/-- A modify-class instruction always completes. -/
theorem modifyClass_spec (new : Byte → Status → Byte) (flags : Byte → Status → Status) (m : Mem) (s : State) :
    ∃ t, modifyClass new flags m s = .next t ∧
      t.cpu = { s.cpu with p := flags (s.oldByte m) s.cpu.p } ∧
      t.con = (s.operandModify m (new (s.oldByte m) s.cpu.p)).con ∧ t.params = s.params :=
  ⟨_, rfl, by simp, rfl, by simp⟩

/-- An accumulator shift always completes. -/
theorem accumulatorClass_spec (new : Byte → Status → Byte) (flags : Byte → Status → Status) (s : State) :
    ∃ t, accumulatorClass new flags s = .next t ∧
      t.cpu = { s.cpu with a := new s.cpu.a s.cpu.p, p := flags s.cpu.a s.cpu.p } ∧ State.Reads 1 s t :=
  ⟨_, rfl, by simp, (State.dummyRead_reads _ s).of_con rfl rfl⟩

/-- A one-byte register or flag instruction always completes. -/
theorem impliedClass_spec (op : Cpu → Cpu) (s : State) :
    ∃ t, impliedClass op s = .next t ∧ t.cpu = op s.cpu ∧ State.Reads 1 s t :=
  ⟨_, rfl, by simp, (State.dummyRead_reads _ s).of_con rfl rfl⟩

/-- A branch always completes. -/
theorem branchClass_spec (cond : Status → Bool) (d : Byte) (s : State) :
    ∃ t, branchClass cond d s = .next t ∧
      t.cpu = { s.cpu with pc := if cond s.cpu.p then branchTarget s.cpu.pc d else s.cpu.pc } ∧
      State.Reads (if cond s.cpu.p then (if branchCrosses s.cpu.pc d then 2 else 1) else 0) s t := by
  refine ⟨_, rfl, ?_, ?_⟩
  · split
    · exact State.takeBranch_cpu d s
    · rfl
  · split
    · exact State.takeBranch_reads d s
    · exact .refl s

end Sys2Proof.Machine
end

