-- ==== Sys2Proof/Laws/Step.lean ====
section
/-! SUPPORT. The cases of `step` and of `cycle`, one equation each, so that no later proof unfolds them; what the
interrupt check leaves. -/

namespace Sys2Proof.Machine

/-! ## The cases of the step -/

theorem step_of_fault {s : State} {b : Byte} (h : s.cpu.fault = some b) : step s = .fault (.illegalOpcode b s) := by
  unfold step stepOnce
  rw [h]

theorem step_of_busy {s : State} {k : InFlight} (hf : s.cpu.fault = none) (hc : s.cpu.control = .busy k) :
    step s = performNextInstruction s := by
  unfold step stepOnce
  rw [hf, hc]

theorem step_of_selected {s : State} {q : Seq} (hf : s.cpu.fault = none) (hc : s.cpu.control = .idle)
    (hq : s.cpu.selected = some q) : step s = .next (s.afterCheck.runSequence q) := by
  unfold step stepOnce
  rw [hf, hc, hq]

/-- What a fetch makes of a step. -/
def Fetched.run : Fetched → Outcome
  | .illegal b t => .fault (.illegalOpcode b t)
  | .ready i t => exec i t

theorem step_of_running {s : State} (h : s.running) : step s = s.afterCheck.fetchInstr.run := by
  unfold step stepOnce
  rw [h.1, h.2.1, h.2.2]
  rfl

theorem fetchInstr_illegal {s : State} (h : opcodeForm (s.fetchedByte 0) = none) :
    s.fetchInstr = .illegal (s.fetchedByte 0) (s.fetch.withFault (s.fetchedByte 0)) := by
  unfold State.fetchInstr
  rw [h]
  rfl

theorem fetchInstr_one {s : State} {i : Instr} (h : opcodeForm (s.fetchedByte 0) = some (.one i)) :
    s.fetchInstr = .ready i (s.afterFetch 1) := by
  unfold State.fetchInstr
  rw [h]

theorem fetchInstr_two {s : State} {f : Byte → Instr} (h : opcodeForm (s.fetchedByte 0) = some (.two f)) :
    s.fetchInstr = .ready (f (s.fetchedByte 1)) (s.afterFetch 2) := by
  unfold State.fetchInstr
  rw [h]

theorem fetchInstr_three {s : State} {f : Addr → Instr} (h : opcodeForm (s.fetchedByte 0) = some (.three f)) :
    s.fetchInstr = .ready (f (word (s.fetchedByte 2) (s.fetchedByte 1))) (s.afterFetch 3) := by
  unfold State.fetchInstr
  rw [h]

theorem fetchInstr_call {s : State} {f : Addr → Instr} (h : opcodeForm (s.fetchedByte 0) = some (.call f)) :
    s.fetchInstr = .ready (f (word (s.fetchedByte 2) (s.fetchedByte 1))) (s.afterFetch 2) := by
  unfold State.fetchInstr
  rw [h]

/-- The state a fetch hands on is the state after the bytes, and nothing else. -/
theorem fetchInstr_cases (s : State) :
    (∃ b, s.fetchInstr = .illegal b (s.fetch.withFault b)) ∨
    (∃ i, s.fetchInstr = .ready i (s.afterFetch i.fetchedBytes)) := by
  cases h : opcodeForm (s.fetchedByte 0) with
  | none => exact .inl ⟨_, fetchInstr_illegal h⟩
  | some f =>
    cases f with
    | one i => exact .inr ⟨i, by rw [fetchInstr_one h, (opcodeForm_one h).2]⟩
    | two f => exact .inr ⟨_, by rw [fetchInstr_two h, (opcodeForm_two h _).2]⟩
    | three f => exact .inr ⟨_, by rw [fetchInstr_three h, (opcodeForm_three h _).2]⟩
    | call f =>
      have hf := opcodeForm_call h
      subst hf
      exact .inr ⟨_, by rw [fetchInstr_call h]; rfl⟩

/-- The meaning of JSR reads only the low byte of its operand. -/
theorem exec_jsr_word (h h' l : Byte) (s : State) : exec (.jsr (word h l)) s = exec (.jsr (word h' l)) s := by
  simp [exec, execJsr]

/-! ## The cases of the cycle -/

theorem cycle_of_fault {s : State} {b : Byte} (h : s.cpu.fault = some b) :
    cycle s = .fault (.illegalOpcode b s) := by
  unfold cycle
  rw [h]

theorem cycle_of_busy {s : State} {k : InFlight} {r : Row} (hf : s.cpu.fault = none) (hc : s.cpu.control = .busy k)
    (hr : k.row s.params s.cpu = some r) : cycle s = .next (r.perform s) := by
  unfold cycle
  rw [hf, hc]
  simp only
  rw [hr]

theorem cycle_of_noRow {s : State} {k : InFlight} (hf : s.cpu.fault = none) (hc : s.cpu.control = .busy k)
    (hr : k.row s.params s.cpu = none) : cycle s = .fault .noRow := by
  unfold cycle
  rw [hf, hc]
  simp only
  rw [hr]

theorem cycle_of_selected {s : State} {q : Seq} (hf : s.cpu.fault = none) (hc : s.cpu.control = .idle)
    (hq : s.cpu.selected = some q) : cycle s = .next (s.afterCheck.startSequence q) := by
  unfold cycle
  rw [hf, hc, hq]

theorem cycle_of_running {s : State} (h : s.running) : cycle s = s.afterCheck.startInstruction := by
  unfold cycle
  rw [h.1, h.2.1, h.2.2]

/-- `performNext` leaves what `performNextInstruction` leaves. -/
theorem performNext_next {s t : State} (h : performNextInstruction s = .next t) :
    performNext s = .next (t, retiredDescriptor 7 s) := by
  unfold performNext
  rw [h]

/-- The descriptor of a run to idle is the one `retired` shows in its last cycle. -/
theorem retiredDescriptor_last {n : Nat} {s t : State} (h : cycle s = .next t) (ht : t.cpu.control = .idle) :
    retiredDescriptor (n + 1) s = s.retired := by
  simp only [retiredDescriptor, State.retired, h, ht, if_true]

/-- One cycle of a run to idle, as its descriptor sees it. -/
theorem retiredDescriptor_next {n : Nat} {s t : State} {k : InFlight} (h : cycle s = .next t)
    (ht : t.cpu.control = .busy k) : retiredDescriptor (n + 1) s = retiredDescriptor n t := by
  simp only [retiredDescriptor, h, ht]

/-- One cycle of a run to idle. -/
theorem runToIdle_next {n : Nat} {s t : State} (h : cycle s = .next t) :
    runToIdle (n + 1) s = match t.cpu.control with
      | .idle => .next t
      | .busy _ => runToIdle n t := by
  show (match cycle s with
    | .next t =>
      match t.cpu.control with
      | .idle => Host.Outcome.next t
      | .busy _ => runToIdle n t
    | .fault f => .fault f
    | .refused r => .refused r) = _
  rw [h]

/-- What a row does besides its register update: reads, or one write. -/
theorem Row.perform_params (r : Row) (s : State) : (r.perform s).params = s.params := by
  cases r <;> simp [Row.perform]

theorem Row.perform_clock (r : Row) (s : State) : (r.perform s).con.clock = s.con.clock + 1 := by
  cases r <;> simp [Row.perform, (State.dummyRead_reads _ s).clock]

theorem Row.perform_wf (r : Row) {s : State} (h : s.con.wf = true) : (r.perform s).con.wf = true := by
  cases r with
  | read a f => exact (State.read_reads a s).wf h
  | write a v f => exact State.write_wf a v h
  | dummyRead a f => exact (State.dummyRead_reads a s).wf h
  | dummyWrite a v f => exact State.dummyWrite_wf a v h

/-! ## The interrupt check -/

theorem afterCheck_of_reset {s : State} (h : s.cpu.resetReq = true) :
    s.afterCheck = s.mapCpu (fun c => { c with resetReq := false }) := by
  simp [State.afterCheck, State.mapCpu, Cpu.afterCheck, Cpu.selected, h]

theorem afterCheck_of_nmi {s : State} (hr : s.cpu.resetReq = false) (h : s.cpu.nmiReq = true) :
    s.afterCheck = s.mapCpu (fun c => { c with nmiReq := false }) := by
  simp [State.afterCheck, State.mapCpu, Cpu.afterCheck, Cpu.selected, hr, h]

theorem afterCheck_of_irq {s : State} (hr : s.cpu.resetReq = false) (hn : s.cpu.nmiReq = false)
    (h : s.cpu.irqReq = true) (hi : s.cpu.p.i = false) :
    s.afterCheck = s.mapCpu (fun c => { c with irqReq := false }) := by
  simp [State.afterCheck, State.mapCpu, Cpu.afterCheck, Cpu.selected, hr, hn, h, hi]

end Sys2Proof.Machine
end

