-- ==== Sys2Proof/Laws/Forms.lean ====
section
/-! SUPPORT. `exec` by the shape of the instruction: one equation for all 151, so that a claim over the instruction
set is a case split over a dozen access classes, not over every constructor. -/

namespace Sys2Proof.Machine

/-- The meaning an operation has with an operand form. -/
def Operation.meaning (op : Operation) (imm : Option Byte) (mem : Option Mem) (operand : Nat) (s : State) : Outcome :=
  match op with
  | .read f =>
    match imm, mem with
    | some d, _ => immediateClass f d s
    | none, some m => readClass f m s
    | none, none => .fault .noRow
  | .write reg =>
    match mem with
    | some m => writeClass reg m s
    | none => .fault .noRow
  | .modify new flags =>
    match mem with
    | some m => modifyClass new flags m s
    | none => accumulatorClass new flags s
  | .implied f => impliedClass f s
  | .branch cond => branchClass cond (BitVec.ofNat 8 operand) s
  | .push reg => .next (s.pushRows reg)
  | .pull f => .next (s.pullRows f)
  | .jump => .next (s.setPc (BitVec.ofNat 16 operand))
  | .call => .next (s.callSubroutine (lo (BitVec.ofNat 16 operand)))
  | .subroutineReturn => .next s.returnFromSubroutine
  | .softwareInterrupt => .next s.softwareInterrupt
  | .interruptReturn => .next s.interruptReturn

theorem byte_ofNat_toNat (d : Byte) : BitVec.ofNat 8 d.toNat = d := BitVec.ofNat_toNat .. |>.trans (BitVec.setWidth_eq d)

theorem addr_ofNat_toNat (w : Addr) : BitVec.ofNat 16 (word (hi w) (lo w)).toNat = w := by
  rw [word_hi_lo, BitVec.ofNat_toNat, BitVec.setWidth_eq]

/-- Every instruction but JMP indirect is its mnemonic's operation on its operand form. -/
theorem exec_eq_meaning {i : Instr} (h : ∀ w, i ≠ .jmpInd w) (s : State) :
    exec i s = i.mnemonic.operation.meaning i.immediate i.mem i.operand s := by
  cases i
  case jmpInd w => exact absurd rfl (h w)
  case bpl d => exact congrArg (fun x => branchClass _ x s) (byte_ofNat_toNat d).symm
  case bmi d => exact congrArg (fun x => branchClass _ x s) (byte_ofNat_toNat d).symm
  case bvc d => exact congrArg (fun x => branchClass _ x s) (byte_ofNat_toNat d).symm
  case bvs d => exact congrArg (fun x => branchClass _ x s) (byte_ofNat_toNat d).symm
  case bcc d => exact congrArg (fun x => branchClass _ x s) (byte_ofNat_toNat d).symm
  case bcs d => exact congrArg (fun x => branchClass _ x s) (byte_ofNat_toNat d).symm
  case bne d => exact congrArg (fun x => branchClass _ x s) (byte_ofNat_toNat d).symm
  case beq d => exact congrArg (fun x => branchClass _ x s) (byte_ofNat_toNat d).symm
  case jmpAbs w => exact congrArg (fun x => Host.Outcome.next (s.setPc x)) (addr_ofNat_toNat w).symm
  case jsr w => exact congrArg (fun x => Host.Outcome.next (s.callSubroutine (lo x))) (addr_ofNat_toNat w).symm
  all_goals rfl

/-- Whether an instruction has the operand its operation works on. -/
def hasOperand (i : Instr) : Bool :=
  match i.mnemonic.operation with
  | .read _ => i.immediate.isSome || i.mem.isSome
  | .write _ => i.mem.isSome
  | .modify _ _ => i.mem.isSome || decide (i.mode = .acc)
  | _ => true

theorem hasOperand_all (i : Instr) : hasOperand i = true := by cases i <;> rfl

theorem exec_of_read {i : Instr} {f : Byte → Cpu → Cpu} (h : i.mnemonic.operation = .read f) (s : State) :
    (∃ d, i.immediate = some d ∧ exec i s = immediateClass f d s) ∨
    (∃ m, i.immediate = none ∧ i.mem = some m ∧ exec i s = readClass f m s) := by
  have hx := exec_eq_meaning (i := i) (by rintro w rfl; simp [Instr.mnemonic, Mnemonic.operation] at h) s
  have hf := hasOperand_all i
  unfold hasOperand at hf
  rw [h] at hf hx
  cases hi : i.immediate with
  | some d => exact .inl ⟨d, rfl, by rw [hx, hi]; rfl⟩
  | none =>
    cases hm : i.mem with
    | some m => exact .inr ⟨m, rfl, rfl, by rw [hx, hi, hm]; rfl⟩
    | none => simp [hi, hm] at hf

theorem exec_of_write {i : Instr} {reg : Cpu → Byte} (h : i.mnemonic.operation = .write reg) (s : State) :
    ∃ m, i.mem = some m ∧ exec i s = writeClass reg m s := by
  have hx := exec_eq_meaning (i := i) (by rintro w rfl; simp [Instr.mnemonic, Mnemonic.operation] at h) s
  have hf := hasOperand_all i
  unfold hasOperand at hf
  rw [h] at hf hx
  cases hm : i.mem with
  | some m => exact ⟨m, rfl, by rw [hx, hm]; rfl⟩
  | none => simp [hm] at hf

theorem exec_of_modify {i : Instr} {new : Byte → Status → Byte} {flags : Byte → Status → Status}
    (h : i.mnemonic.operation = .modify new flags) (s : State) :
    (∃ m, i.mem = some m ∧ exec i s = modifyClass new flags m s) ∨
    (i.mem = none ∧ i.mode = .acc ∧ exec i s = accumulatorClass new flags s) := by
  have hx := exec_eq_meaning (i := i) (by rintro w rfl; simp [Instr.mnemonic, Mnemonic.operation] at h) s
  have hf := hasOperand_all i
  unfold hasOperand at hf
  rw [h] at hf hx
  cases hm : i.mem with
  | some m => exact .inl ⟨m, rfl, by rw [hx, hm]; rfl⟩
  | none => exact .inr ⟨rfl, by simpa [hm] using hf, by rw [hx, hm]; rfl⟩

theorem exec_of_implied {i : Instr} {f : Cpu → Cpu} (h : i.mnemonic.operation = .implied f) (s : State) :
    exec i s = impliedClass f s := by
  have hx := exec_eq_meaning (i := i) (by rintro w rfl; simp [Instr.mnemonic, Mnemonic.operation] at h) s
  rw [hx, h]
  rfl

theorem exec_of_branch {i : Instr} {cond : Status → Bool} (h : i.mnemonic.operation = .branch cond) (s : State) :
    exec i s = branchClass cond (BitVec.ofNat 8 i.operand) s := by
  have hx := exec_eq_meaning (i := i) (by rintro w rfl; simp [Instr.mnemonic, Mnemonic.operation] at h) s
  rw [hx, h]
  rfl

/-- The read-class result: one statement for every read-class instruction. -/
theorem exec_read_spec {i : Instr} {f : Byte → Cpu → Cpu} (h : i.mnemonic.operation = .read f) (s : State) :
    ∃ m t, i.operandByte s = some m ∧ exec i s = .next t ∧ t.cpu = f m s.cpu ∧ ∃ n, State.Reads n s t := by
  rcases exec_of_read h s with ⟨d, hi, hx⟩ | ⟨m, hi, hm, hx⟩
  · exact ⟨d, _, by simp [Instr.operandByte, hi], hx, rfl, 0, (State.Reads.refl s).of_con rfl rfl⟩
  · obtain ⟨t, ht, hc, hr⟩ := readClass_spec f m s
    exact ⟨s.operand m, t, by simp [Instr.operandByte, hi, hm], hx.trans ht, hc, _, hr⟩

end Sys2Proof.Machine
end

