-- ==== Sys2Proof/Laws/PerInstr.lean ====
section
/-! SUPPORT. The per-instruction family: every instruction's encoding and its length
(30_encoding.md R90, R101). -/

namespace Sys2Proof.Laws.EncodedLength

/-- The encoding is as long as the mode says, 1 to 3 bytes; and the mnemonic has the mode. -/
def Statement (i : Instr) : Prop :=
  (encode i).length = i.mode.length ∧ (1 ≤ i.mode.length ∧ i.mode.length ≤ 3) ∧
    i.written.modeOk = true

theorem lengthBounds (m : Mode) : 1 ≤ m.length ∧ m.length ≤ 3 := by cases m <;> decide

theorem ldaImm (d8 : Byte) : Statement (.ldaImm d8) :=
  ⟨rfl, lengthBounds _, rfl⟩

theorem ldaZp (d8 : Byte) : Statement (.ldaZp d8) :=
  ⟨rfl, lengthBounds _, rfl⟩

theorem ldaZpx (d8 : Byte) : Statement (.ldaZpx d8) :=
  ⟨rfl, lengthBounds _, rfl⟩

theorem ldaAbs (d16 : Addr) : Statement (.ldaAbs d16) :=
  ⟨rfl, lengthBounds _, rfl⟩

theorem ldaAbx (d16 : Addr) : Statement (.ldaAbx d16) :=
  ⟨rfl, lengthBounds _, rfl⟩

theorem ldaAby (d16 : Addr) : Statement (.ldaAby d16) :=
  ⟨rfl, lengthBounds _, rfl⟩

theorem ldaIzx (d8 : Byte) : Statement (.ldaIzx d8) :=
  ⟨rfl, lengthBounds _, rfl⟩

theorem ldaIzy (d8 : Byte) : Statement (.ldaIzy d8) :=
  ⟨rfl, lengthBounds _, rfl⟩

theorem ldxImm (d8 : Byte) : Statement (.ldxImm d8) :=
  ⟨rfl, lengthBounds _, rfl⟩

theorem ldxZp (d8 : Byte) : Statement (.ldxZp d8) :=
  ⟨rfl, lengthBounds _, rfl⟩

theorem ldxZpy (d8 : Byte) : Statement (.ldxZpy d8) :=
  ⟨rfl, lengthBounds _, rfl⟩

theorem ldxAbs (d16 : Addr) : Statement (.ldxAbs d16) :=
  ⟨rfl, lengthBounds _, rfl⟩

theorem ldxAby (d16 : Addr) : Statement (.ldxAby d16) :=
  ⟨rfl, lengthBounds _, rfl⟩

theorem ldyImm (d8 : Byte) : Statement (.ldyImm d8) :=
  ⟨rfl, lengthBounds _, rfl⟩

theorem ldyZp (d8 : Byte) : Statement (.ldyZp d8) :=
  ⟨rfl, lengthBounds _, rfl⟩

theorem ldyZpx (d8 : Byte) : Statement (.ldyZpx d8) :=
  ⟨rfl, lengthBounds _, rfl⟩

theorem ldyAbs (d16 : Addr) : Statement (.ldyAbs d16) :=
  ⟨rfl, lengthBounds _, rfl⟩

theorem ldyAbx (d16 : Addr) : Statement (.ldyAbx d16) :=
  ⟨rfl, lengthBounds _, rfl⟩

theorem staZp (d8 : Byte) : Statement (.staZp d8) :=
  ⟨rfl, lengthBounds _, rfl⟩

theorem staZpx (d8 : Byte) : Statement (.staZpx d8) :=
  ⟨rfl, lengthBounds _, rfl⟩

theorem staAbs (d16 : Addr) : Statement (.staAbs d16) :=
  ⟨rfl, lengthBounds _, rfl⟩

theorem staAbx (d16 : Addr) : Statement (.staAbx d16) :=
  ⟨rfl, lengthBounds _, rfl⟩

theorem staAby (d16 : Addr) : Statement (.staAby d16) :=
  ⟨rfl, lengthBounds _, rfl⟩

theorem staIzx (d8 : Byte) : Statement (.staIzx d8) :=
  ⟨rfl, lengthBounds _, rfl⟩

theorem staIzy (d8 : Byte) : Statement (.staIzy d8) :=
  ⟨rfl, lengthBounds _, rfl⟩

theorem stxZp (d8 : Byte) : Statement (.stxZp d8) :=
  ⟨rfl, lengthBounds _, rfl⟩

theorem stxZpy (d8 : Byte) : Statement (.stxZpy d8) :=
  ⟨rfl, lengthBounds _, rfl⟩

theorem stxAbs (d16 : Addr) : Statement (.stxAbs d16) :=
  ⟨rfl, lengthBounds _, rfl⟩

theorem styZp (d8 : Byte) : Statement (.styZp d8) :=
  ⟨rfl, lengthBounds _, rfl⟩

theorem styZpx (d8 : Byte) : Statement (.styZpx d8) :=
  ⟨rfl, lengthBounds _, rfl⟩

theorem styAbs (d16 : Addr) : Statement (.styAbs d16) :=
  ⟨rfl, lengthBounds _, rfl⟩

theorem tax : Statement .tax := ⟨rfl, lengthBounds _, rfl⟩

theorem tay : Statement .tay := ⟨rfl, lengthBounds _, rfl⟩

theorem txa : Statement .txa := ⟨rfl, lengthBounds _, rfl⟩

theorem tya : Statement .tya := ⟨rfl, lengthBounds _, rfl⟩

theorem tsx : Statement .tsx := ⟨rfl, lengthBounds _, rfl⟩

theorem txs : Statement .txs := ⟨rfl, lengthBounds _, rfl⟩

theorem adcImm (d8 : Byte) : Statement (.adcImm d8) :=
  ⟨rfl, lengthBounds _, rfl⟩

theorem adcZp (d8 : Byte) : Statement (.adcZp d8) :=
  ⟨rfl, lengthBounds _, rfl⟩

theorem adcZpx (d8 : Byte) : Statement (.adcZpx d8) :=
  ⟨rfl, lengthBounds _, rfl⟩

theorem adcAbs (d16 : Addr) : Statement (.adcAbs d16) :=
  ⟨rfl, lengthBounds _, rfl⟩

theorem adcAbx (d16 : Addr) : Statement (.adcAbx d16) :=
  ⟨rfl, lengthBounds _, rfl⟩

theorem adcAby (d16 : Addr) : Statement (.adcAby d16) :=
  ⟨rfl, lengthBounds _, rfl⟩

theorem adcIzx (d8 : Byte) : Statement (.adcIzx d8) :=
  ⟨rfl, lengthBounds _, rfl⟩

theorem adcIzy (d8 : Byte) : Statement (.adcIzy d8) :=
  ⟨rfl, lengthBounds _, rfl⟩

theorem sbcImm (d8 : Byte) : Statement (.sbcImm d8) :=
  ⟨rfl, lengthBounds _, rfl⟩

theorem sbcZp (d8 : Byte) : Statement (.sbcZp d8) :=
  ⟨rfl, lengthBounds _, rfl⟩

theorem sbcZpx (d8 : Byte) : Statement (.sbcZpx d8) :=
  ⟨rfl, lengthBounds _, rfl⟩

theorem sbcAbs (d16 : Addr) : Statement (.sbcAbs d16) :=
  ⟨rfl, lengthBounds _, rfl⟩

theorem sbcAbx (d16 : Addr) : Statement (.sbcAbx d16) :=
  ⟨rfl, lengthBounds _, rfl⟩

theorem sbcAby (d16 : Addr) : Statement (.sbcAby d16) :=
  ⟨rfl, lengthBounds _, rfl⟩

theorem sbcIzx (d8 : Byte) : Statement (.sbcIzx d8) :=
  ⟨rfl, lengthBounds _, rfl⟩

theorem sbcIzy (d8 : Byte) : Statement (.sbcIzy d8) :=
  ⟨rfl, lengthBounds _, rfl⟩

theorem andImm (d8 : Byte) : Statement (.andImm d8) :=
  ⟨rfl, lengthBounds _, rfl⟩

theorem andZp (d8 : Byte) : Statement (.andZp d8) :=
  ⟨rfl, lengthBounds _, rfl⟩

theorem andZpx (d8 : Byte) : Statement (.andZpx d8) :=
  ⟨rfl, lengthBounds _, rfl⟩

theorem andAbs (d16 : Addr) : Statement (.andAbs d16) :=
  ⟨rfl, lengthBounds _, rfl⟩

theorem andAbx (d16 : Addr) : Statement (.andAbx d16) :=
  ⟨rfl, lengthBounds _, rfl⟩

theorem andAby (d16 : Addr) : Statement (.andAby d16) :=
  ⟨rfl, lengthBounds _, rfl⟩

theorem andIzx (d8 : Byte) : Statement (.andIzx d8) :=
  ⟨rfl, lengthBounds _, rfl⟩

theorem andIzy (d8 : Byte) : Statement (.andIzy d8) :=
  ⟨rfl, lengthBounds _, rfl⟩

theorem oraImm (d8 : Byte) : Statement (.oraImm d8) :=
  ⟨rfl, lengthBounds _, rfl⟩

theorem oraZp (d8 : Byte) : Statement (.oraZp d8) :=
  ⟨rfl, lengthBounds _, rfl⟩

theorem oraZpx (d8 : Byte) : Statement (.oraZpx d8) :=
  ⟨rfl, lengthBounds _, rfl⟩

theorem oraAbs (d16 : Addr) : Statement (.oraAbs d16) :=
  ⟨rfl, lengthBounds _, rfl⟩

theorem oraAbx (d16 : Addr) : Statement (.oraAbx d16) :=
  ⟨rfl, lengthBounds _, rfl⟩

theorem oraAby (d16 : Addr) : Statement (.oraAby d16) :=
  ⟨rfl, lengthBounds _, rfl⟩

theorem oraIzx (d8 : Byte) : Statement (.oraIzx d8) :=
  ⟨rfl, lengthBounds _, rfl⟩

theorem oraIzy (d8 : Byte) : Statement (.oraIzy d8) :=
  ⟨rfl, lengthBounds _, rfl⟩

theorem eorImm (d8 : Byte) : Statement (.eorImm d8) :=
  ⟨rfl, lengthBounds _, rfl⟩

theorem eorZp (d8 : Byte) : Statement (.eorZp d8) :=
  ⟨rfl, lengthBounds _, rfl⟩

theorem eorZpx (d8 : Byte) : Statement (.eorZpx d8) :=
  ⟨rfl, lengthBounds _, rfl⟩

theorem eorAbs (d16 : Addr) : Statement (.eorAbs d16) :=
  ⟨rfl, lengthBounds _, rfl⟩

theorem eorAbx (d16 : Addr) : Statement (.eorAbx d16) :=
  ⟨rfl, lengthBounds _, rfl⟩

theorem eorAby (d16 : Addr) : Statement (.eorAby d16) :=
  ⟨rfl, lengthBounds _, rfl⟩

theorem eorIzx (d8 : Byte) : Statement (.eorIzx d8) :=
  ⟨rfl, lengthBounds _, rfl⟩

theorem eorIzy (d8 : Byte) : Statement (.eorIzy d8) :=
  ⟨rfl, lengthBounds _, rfl⟩

theorem cmpImm (d8 : Byte) : Statement (.cmpImm d8) :=
  ⟨rfl, lengthBounds _, rfl⟩

theorem cmpZp (d8 : Byte) : Statement (.cmpZp d8) :=
  ⟨rfl, lengthBounds _, rfl⟩

theorem cmpZpx (d8 : Byte) : Statement (.cmpZpx d8) :=
  ⟨rfl, lengthBounds _, rfl⟩

theorem cmpAbs (d16 : Addr) : Statement (.cmpAbs d16) :=
  ⟨rfl, lengthBounds _, rfl⟩

theorem cmpAbx (d16 : Addr) : Statement (.cmpAbx d16) :=
  ⟨rfl, lengthBounds _, rfl⟩

theorem cmpAby (d16 : Addr) : Statement (.cmpAby d16) :=
  ⟨rfl, lengthBounds _, rfl⟩

theorem cmpIzx (d8 : Byte) : Statement (.cmpIzx d8) :=
  ⟨rfl, lengthBounds _, rfl⟩

theorem cmpIzy (d8 : Byte) : Statement (.cmpIzy d8) :=
  ⟨rfl, lengthBounds _, rfl⟩

theorem cpxImm (d8 : Byte) : Statement (.cpxImm d8) :=
  ⟨rfl, lengthBounds _, rfl⟩

theorem cpxZp (d8 : Byte) : Statement (.cpxZp d8) :=
  ⟨rfl, lengthBounds _, rfl⟩

theorem cpxAbs (d16 : Addr) : Statement (.cpxAbs d16) :=
  ⟨rfl, lengthBounds _, rfl⟩

theorem cpyImm (d8 : Byte) : Statement (.cpyImm d8) :=
  ⟨rfl, lengthBounds _, rfl⟩

theorem cpyZp (d8 : Byte) : Statement (.cpyZp d8) :=
  ⟨rfl, lengthBounds _, rfl⟩

theorem cpyAbs (d16 : Addr) : Statement (.cpyAbs d16) :=
  ⟨rfl, lengthBounds _, rfl⟩

theorem bitZp (d8 : Byte) : Statement (.bitZp d8) :=
  ⟨rfl, lengthBounds _, rfl⟩

theorem bitAbs (d16 : Addr) : Statement (.bitAbs d16) :=
  ⟨rfl, lengthBounds _, rfl⟩

theorem aslAcc : Statement .aslAcc := ⟨rfl, lengthBounds _, rfl⟩

theorem aslZp (d8 : Byte) : Statement (.aslZp d8) :=
  ⟨rfl, lengthBounds _, rfl⟩

theorem aslZpx (d8 : Byte) : Statement (.aslZpx d8) :=
  ⟨rfl, lengthBounds _, rfl⟩

theorem aslAbs (d16 : Addr) : Statement (.aslAbs d16) :=
  ⟨rfl, lengthBounds _, rfl⟩

theorem aslAbx (d16 : Addr) : Statement (.aslAbx d16) :=
  ⟨rfl, lengthBounds _, rfl⟩

theorem lsrAcc : Statement .lsrAcc := ⟨rfl, lengthBounds _, rfl⟩

theorem lsrZp (d8 : Byte) : Statement (.lsrZp d8) :=
  ⟨rfl, lengthBounds _, rfl⟩

theorem lsrZpx (d8 : Byte) : Statement (.lsrZpx d8) :=
  ⟨rfl, lengthBounds _, rfl⟩

theorem lsrAbs (d16 : Addr) : Statement (.lsrAbs d16) :=
  ⟨rfl, lengthBounds _, rfl⟩

theorem lsrAbx (d16 : Addr) : Statement (.lsrAbx d16) :=
  ⟨rfl, lengthBounds _, rfl⟩

theorem rolAcc : Statement .rolAcc := ⟨rfl, lengthBounds _, rfl⟩

theorem rolZp (d8 : Byte) : Statement (.rolZp d8) :=
  ⟨rfl, lengthBounds _, rfl⟩

theorem rolZpx (d8 : Byte) : Statement (.rolZpx d8) :=
  ⟨rfl, lengthBounds _, rfl⟩

theorem rolAbs (d16 : Addr) : Statement (.rolAbs d16) :=
  ⟨rfl, lengthBounds _, rfl⟩

theorem rolAbx (d16 : Addr) : Statement (.rolAbx d16) :=
  ⟨rfl, lengthBounds _, rfl⟩

theorem rorAcc : Statement .rorAcc := ⟨rfl, lengthBounds _, rfl⟩

theorem rorZp (d8 : Byte) : Statement (.rorZp d8) :=
  ⟨rfl, lengthBounds _, rfl⟩

theorem rorZpx (d8 : Byte) : Statement (.rorZpx d8) :=
  ⟨rfl, lengthBounds _, rfl⟩

theorem rorAbs (d16 : Addr) : Statement (.rorAbs d16) :=
  ⟨rfl, lengthBounds _, rfl⟩

theorem rorAbx (d16 : Addr) : Statement (.rorAbx d16) :=
  ⟨rfl, lengthBounds _, rfl⟩

theorem incZp (d8 : Byte) : Statement (.incZp d8) :=
  ⟨rfl, lengthBounds _, rfl⟩

theorem incZpx (d8 : Byte) : Statement (.incZpx d8) :=
  ⟨rfl, lengthBounds _, rfl⟩

theorem incAbs (d16 : Addr) : Statement (.incAbs d16) :=
  ⟨rfl, lengthBounds _, rfl⟩

theorem incAbx (d16 : Addr) : Statement (.incAbx d16) :=
  ⟨rfl, lengthBounds _, rfl⟩

theorem decZp (d8 : Byte) : Statement (.decZp d8) :=
  ⟨rfl, lengthBounds _, rfl⟩

theorem decZpx (d8 : Byte) : Statement (.decZpx d8) :=
  ⟨rfl, lengthBounds _, rfl⟩

theorem decAbs (d16 : Addr) : Statement (.decAbs d16) :=
  ⟨rfl, lengthBounds _, rfl⟩

theorem decAbx (d16 : Addr) : Statement (.decAbx d16) :=
  ⟨rfl, lengthBounds _, rfl⟩

theorem inx : Statement .inx := ⟨rfl, lengthBounds _, rfl⟩

theorem iny : Statement .iny := ⟨rfl, lengthBounds _, rfl⟩

theorem dex : Statement .dex := ⟨rfl, lengthBounds _, rfl⟩

theorem dey : Statement .dey := ⟨rfl, lengthBounds _, rfl⟩

theorem bpl (d8 : Byte) : Statement (.bpl d8) :=
  ⟨rfl, lengthBounds _, rfl⟩

theorem bmi (d8 : Byte) : Statement (.bmi d8) :=
  ⟨rfl, lengthBounds _, rfl⟩

theorem bvc (d8 : Byte) : Statement (.bvc d8) :=
  ⟨rfl, lengthBounds _, rfl⟩

theorem bvs (d8 : Byte) : Statement (.bvs d8) :=
  ⟨rfl, lengthBounds _, rfl⟩

theorem bcc (d8 : Byte) : Statement (.bcc d8) :=
  ⟨rfl, lengthBounds _, rfl⟩

theorem bcs (d8 : Byte) : Statement (.bcs d8) :=
  ⟨rfl, lengthBounds _, rfl⟩

theorem bne (d8 : Byte) : Statement (.bne d8) :=
  ⟨rfl, lengthBounds _, rfl⟩

theorem beq (d8 : Byte) : Statement (.beq d8) :=
  ⟨rfl, lengthBounds _, rfl⟩

theorem jmpAbs (d16 : Addr) : Statement (.jmpAbs d16) :=
  ⟨rfl, lengthBounds _, rfl⟩

theorem jmpInd (d16 : Addr) : Statement (.jmpInd d16) :=
  ⟨rfl, lengthBounds _, rfl⟩

theorem jsr (d16 : Addr) : Statement (.jsr d16) :=
  ⟨rfl, lengthBounds _, rfl⟩

theorem rts : Statement .rts := ⟨rfl, lengthBounds _, rfl⟩

theorem pha : Statement .pha := ⟨rfl, lengthBounds _, rfl⟩

theorem php : Statement .php := ⟨rfl, lengthBounds _, rfl⟩

theorem pla : Statement .pla := ⟨rfl, lengthBounds _, rfl⟩

theorem plp : Statement .plp := ⟨rfl, lengthBounds _, rfl⟩

theorem clc : Statement .clc := ⟨rfl, lengthBounds _, rfl⟩

theorem sec : Statement .sec := ⟨rfl, lengthBounds _, rfl⟩

theorem cli : Statement .cli := ⟨rfl, lengthBounds _, rfl⟩

theorem sei : Statement .sei := ⟨rfl, lengthBounds _, rfl⟩

theorem cld : Statement .cld := ⟨rfl, lengthBounds _, rfl⟩

theorem sed : Statement .sed := ⟨rfl, lengthBounds _, rfl⟩

theorem clv : Statement .clv := ⟨rfl, lengthBounds _, rfl⟩

theorem nop : Statement .nop := ⟨rfl, lengthBounds _, rfl⟩

theorem brk : Statement .brk := ⟨rfl, lengthBounds _, rfl⟩

theorem rti : Statement .rti := ⟨rfl, lengthBounds _, rfl⟩

end Sys2Proof.Laws.EncodedLength
end

