-- ==== Sys2Proof/Tests/Slice0.lean ====
section
/-! SUPPORT. The model's own tests: decoding of every row with words written out from 30_encoding.md R90 and R98, ill-formed
terms, one-step tests whose expected results are the rows of 95_test_vectors.md, and one witness for the hypotheses
of each statement. -/

namespace Sys2Proof.Tests

open Sys2Proof.Machine

/-! ## Well-formedness: each check refuses something -/

/-- STA has no immediate form (41_load_store_transfer.md R173). -/
theorem test_store_has_no_immediate : (Written.mk .sta .imm 5).wellFormed = false := by decide

/-- INC has no accumulator form (43_shift_rotate_incdec.md R234). -/
theorem test_inc_has_no_accumulator : (Written.mk .inc .acc 0).modeOk = false := by decide

/-- An immediate operand is one byte (30_encoding.md R96). -/
theorem test_operand_too_wide : (Written.mk .lda .imm 256).operandOk = false := by decide

theorem test_operand_too_wide_abs : (Written.mk .jmp .ind 65536).wellFormed = false := by decide

/-- An implied instruction has no operand. -/
theorem test_operand_where_none : (Written.mk .tax .imp 1).wellFormed = false := by decide

theorem test_operand_widest : (Written.mk .lda .imm 255).wellFormed = true ∧
    (Written.mk .jmp .ind 65535).wellFormed = true := by decide

/-! ## Decoding: every row of the opcode table, bytes from the matrix of 30_encoding.md R98 -/

/-- The bytes decode to the instruction and to nothing more, and the instruction encodes to the bytes. -/
def readsAs (e : List Byte × Instr) : Bool :=
  match decode e.1 with
  | .ok (i, []) => i == e.2 && encode e.2 == e.1
  | _ => false

/-- Every pair reads. -/
def allRead (l : List (List Byte × Instr)) : Bool := l.all readsAs

theorem test_decode_lda_ldx_ldy_sta : allRead [
    ([0xA9, 0x9C], .ldaImm 0x9C), ([0xA5, 0x9C], .ldaZp 0x9C), ([0xB5, 0x9C], .ldaZpx 0x9C),
    ([0xAD, 0x34, 0xF2], .ldaAbs 0xF234), ([0xBD, 0x34, 0xF2], .ldaAbx 0xF234),
    ([0xB9, 0x34, 0xF2], .ldaAby 0xF234), ([0xA1, 0x9C], .ldaIzx 0x9C), ([0xB1, 0x9C], .ldaIzy 0x9C),
    ([0xA2, 0x9C], .ldxImm 0x9C), ([0xA6, 0x9C], .ldxZp 0x9C), ([0xB6, 0x9C], .ldxZpy 0x9C),
    ([0xAE, 0x34, 0xF2], .ldxAbs 0xF234), ([0xBE, 0x34, 0xF2], .ldxAby 0xF234), ([0xA0, 0x9C], .ldyImm 0x9C),
    ([0xA4, 0x9C], .ldyZp 0x9C), ([0xB4, 0x9C], .ldyZpx 0x9C), ([0xAC, 0x34, 0xF2], .ldyAbs 0xF234),
    ([0xBC, 0x34, 0xF2], .ldyAbx 0xF234), ([0x85, 0x9C], .staZp 0x9C), ([0x95, 0x9C], .staZpx 0x9C),
    ([0x8D, 0x34, 0xF2], .staAbs 0xF234), ([0x9D, 0x34, 0xF2], .staAbx 0xF234),
    ([0x99, 0x34, 0xF2], .staAby 0xF234), ([0x81, 0x9C], .staIzx 0x9C), ([0x91, 0x9C], .staIzy 0x9C)] = true := by decide

theorem test_decode_stx_sty_tax_tay : allRead [
    ([0x86, 0x9C], .stxZp 0x9C), ([0x96, 0x9C], .stxZpy 0x9C), ([0x8E, 0x34, 0xF2], .stxAbs 0xF234),
    ([0x84, 0x9C], .styZp 0x9C), ([0x94, 0x9C], .styZpx 0x9C), ([0x8C, 0x34, 0xF2], .styAbs 0xF234),
    ([0xAA], .tax), ([0xA8], .tay)] = true := by decide

theorem test_decode_txa_tya_tsx_txs : allRead [
    ([0x8A], .txa), ([0x98], .tya), ([0xBA], .tsx), ([0x9A], .txs)] = true := by decide

theorem test_decode_adc_sbc_and_ora : allRead [
    ([0x69, 0x9C], .adcImm 0x9C), ([0x65, 0x9C], .adcZp 0x9C), ([0x75, 0x9C], .adcZpx 0x9C),
    ([0x6D, 0x34, 0xF2], .adcAbs 0xF234), ([0x7D, 0x34, 0xF2], .adcAbx 0xF234),
    ([0x79, 0x34, 0xF2], .adcAby 0xF234), ([0x61, 0x9C], .adcIzx 0x9C), ([0x71, 0x9C], .adcIzy 0x9C),
    ([0xE9, 0x9C], .sbcImm 0x9C), ([0xE5, 0x9C], .sbcZp 0x9C), ([0xF5, 0x9C], .sbcZpx 0x9C),
    ([0xED, 0x34, 0xF2], .sbcAbs 0xF234), ([0xFD, 0x34, 0xF2], .sbcAbx 0xF234),
    ([0xF9, 0x34, 0xF2], .sbcAby 0xF234), ([0xE1, 0x9C], .sbcIzx 0x9C), ([0xF1, 0x9C], .sbcIzy 0x9C),
    ([0x29, 0x9C], .andImm 0x9C), ([0x25, 0x9C], .andZp 0x9C), ([0x35, 0x9C], .andZpx 0x9C),
    ([0x2D, 0x34, 0xF2], .andAbs 0xF234), ([0x3D, 0x34, 0xF2], .andAbx 0xF234),
    ([0x39, 0x34, 0xF2], .andAby 0xF234), ([0x21, 0x9C], .andIzx 0x9C), ([0x31, 0x9C], .andIzy 0x9C),
    ([0x09, 0x9C], .oraImm 0x9C), ([0x05, 0x9C], .oraZp 0x9C), ([0x15, 0x9C], .oraZpx 0x9C),
    ([0x0D, 0x34, 0xF2], .oraAbs 0xF234), ([0x1D, 0x34, 0xF2], .oraAbx 0xF234),
    ([0x19, 0x34, 0xF2], .oraAby 0xF234), ([0x01, 0x9C], .oraIzx 0x9C), ([0x11, 0x9C], .oraIzy 0x9C)] = true := by decide

theorem test_decode_eor_cmp_cpx_cpy : allRead [
    ([0x49, 0x9C], .eorImm 0x9C), ([0x45, 0x9C], .eorZp 0x9C), ([0x55, 0x9C], .eorZpx 0x9C),
    ([0x4D, 0x34, 0xF2], .eorAbs 0xF234), ([0x5D, 0x34, 0xF2], .eorAbx 0xF234),
    ([0x59, 0x34, 0xF2], .eorAby 0xF234), ([0x41, 0x9C], .eorIzx 0x9C), ([0x51, 0x9C], .eorIzy 0x9C),
    ([0xC9, 0x9C], .cmpImm 0x9C), ([0xC5, 0x9C], .cmpZp 0x9C), ([0xD5, 0x9C], .cmpZpx 0x9C),
    ([0xCD, 0x34, 0xF2], .cmpAbs 0xF234), ([0xDD, 0x34, 0xF2], .cmpAbx 0xF234),
    ([0xD9, 0x34, 0xF2], .cmpAby 0xF234), ([0xC1, 0x9C], .cmpIzx 0x9C), ([0xD1, 0x9C], .cmpIzy 0x9C),
    ([0xE0, 0x9C], .cpxImm 0x9C), ([0xE4, 0x9C], .cpxZp 0x9C), ([0xEC, 0x34, 0xF2], .cpxAbs 0xF234),
    ([0xC0, 0x9C], .cpyImm 0x9C), ([0xC4, 0x9C], .cpyZp 0x9C), ([0xCC, 0x34, 0xF2], .cpyAbs 0xF234)] = true := by decide

theorem test_decode_bit : allRead [
    ([0x24, 0x9C], .bitZp 0x9C), ([0x2C, 0x34, 0xF2], .bitAbs 0xF234)] = true := by decide

theorem test_decode_asl_lsr_rol_ror : allRead [
    ([0x0A], .aslAcc), ([0x06, 0x9C], .aslZp 0x9C), ([0x16, 0x9C], .aslZpx 0x9C),
    ([0x0E, 0x34, 0xF2], .aslAbs 0xF234), ([0x1E, 0x34, 0xF2], .aslAbx 0xF234), ([0x4A], .lsrAcc),
    ([0x46, 0x9C], .lsrZp 0x9C), ([0x56, 0x9C], .lsrZpx 0x9C), ([0x4E, 0x34, 0xF2], .lsrAbs 0xF234),
    ([0x5E, 0x34, 0xF2], .lsrAbx 0xF234), ([0x2A], .rolAcc), ([0x26, 0x9C], .rolZp 0x9C),
    ([0x36, 0x9C], .rolZpx 0x9C), ([0x2E, 0x34, 0xF2], .rolAbs 0xF234), ([0x3E, 0x34, 0xF2], .rolAbx 0xF234),
    ([0x6A], .rorAcc), ([0x66, 0x9C], .rorZp 0x9C), ([0x76, 0x9C], .rorZpx 0x9C),
    ([0x6E, 0x34, 0xF2], .rorAbs 0xF234), ([0x7E, 0x34, 0xF2], .rorAbx 0xF234)] = true := by decide

theorem test_decode_inc_dec_inx_iny : allRead [
    ([0xE6, 0x9C], .incZp 0x9C), ([0xF6, 0x9C], .incZpx 0x9C), ([0xEE, 0x34, 0xF2], .incAbs 0xF234),
    ([0xFE, 0x34, 0xF2], .incAbx 0xF234), ([0xC6, 0x9C], .decZp 0x9C), ([0xD6, 0x9C], .decZpx 0x9C),
    ([0xCE, 0x34, 0xF2], .decAbs 0xF234), ([0xDE, 0x34, 0xF2], .decAbx 0xF234), ([0xE8], .inx), ([0xC8], .iny)] = true := by decide

theorem test_decode_dex_dey : allRead [
    ([0xCA], .dex), ([0x88], .dey)] = true := by decide

theorem test_decode_bpl_bmi_bvc_bvs : allRead [
    ([0x10, 0x9C], .bpl 0x9C), ([0x30, 0x9C], .bmi 0x9C), ([0x50, 0x9C], .bvc 0x9C), ([0x70, 0x9C], .bvs 0x9C)] = true := by decide

theorem test_decode_bcc_bcs_bne_beq : allRead [
    ([0x90, 0x9C], .bcc 0x9C), ([0xB0, 0x9C], .bcs 0x9C), ([0xD0, 0x9C], .bne 0x9C), ([0xF0, 0x9C], .beq 0x9C)] = true := by decide

theorem test_decode_jmp_jsr_rts : allRead [
    ([0x4C, 0x34, 0xF2], .jmpAbs 0xF234), ([0x6C, 0x34, 0xF2], .jmpInd 0xF234),
    ([0x20, 0x34, 0xF2], .jsr 0xF234), ([0x60], .rts)] = true := by decide

theorem test_decode_pha_php_pla_plp : allRead [
    ([0x48], .pha), ([0x08], .php), ([0x68], .pla), ([0x28], .plp)] = true := by decide

theorem test_decode_clc_sec_cli_sei : allRead [
    ([0x18], .clc), ([0x38], .sec), ([0x58], .cli), ([0x78], .sei)] = true := by decide

theorem test_decode_cld_sed_clv_nop : allRead [
    ([0xD8], .cld), ([0xF8], .sed), ([0xB8], .clv), ([0xEA], .nop)] = true := by decide

theorem test_decode_brk_rti : allRead [
    ([0x00], .brk), ([0x40], .rti)] = true := by decide

/-- Illegal bytes and bytes that end too early are refused by name (30_encoding.md R99, R101). -/
theorem test_decode_refusals : decode [0x02, 0x00] = .error (.illegalOpcode 0x02) ∧
    decode [0xFF] = .error (.illegalOpcode 0xFF) ∧ decode [] = .error (.truncated 1) ∧
    decode [0xAD, 0x34] = .error (.truncated 1) := by decide

/-! ## One step: rows of 95_test_vectors.md, part L2 -/

/-- The default start state of the vectors: `SP = 0xFD`, PC 0x0200, `I = 1`, all else zero. -/
def core : Cpu := { Cpu.powerOn with sp := 0xFD, pc := 0x0200, resetReq := false }

/-- Bytes put into a memory. -/
def fill (m : Memory) (l : List (Nat × Byte)) : Memory := l.foldl (fun m e => m.write e.1 e.2) m

/-- A machine with these registers, instruction bytes at PC, further RAM and ROM bytes (ROM by offset). -/
def machine (c : Cpu) (bytes : List Byte) (ram rom : List (Nat × Byte)) : State :=
  { State.reset with
    cpu := c
    con := { State.reset.con with
      ram := fill (Memory.writeList [] c.pc.toNat bytes) ram
      cart := { Cart.blank with prgRom := fill [] rom } } }

/-- One step ends with these registers, these RAM bytes, after so many cycles. -/
def ends (s : State) (want : Cpu) (stored : List (Nat × Byte)) (cycles : Nat) : Bool :=
  match step s with
  | .next t =>
    decide (t.cpu = want) && stored.all (fun e => t.con.ram.read e.1 == e.2) && t.con.clock == cycles
  | _ => false

/-- V row LD1: LDA #$00. -/
theorem test_LD1 : ends (machine { core with a := 0x55 } [0xA9, 0x00] [] [])
    ({ core with pc := 0x0202, p := Status.unpack 0x06 }) [] 2 = true := by decide

/-- V row LD4: LDA $FF,X. -/
theorem test_LD4 : ends (machine { core with x := 0x02 } [0xB5, 0xFF] [(0x001, 0x42), (0x101, 0x99)] [])
    ({ core with a := 0x42, x := 0x02, pc := 0x0202 }) [] 4 = true := by decide

/-- V row LD9: LDA ($FE,X). -/
theorem test_LD9 : ends (machine { core with x := 0x01 } [0xA1, 0xFE] [(0x0FF, 0x34), (0x000, 0x06), (0x634, 0xAB)] [])
    ({ core with a := 0xAB, x := 0x01, pc := 0x0202, p := Status.unpack 0x84 }) [] 6 = true := by decide

/-- V row LD11: LDA ($20),Y. -/
theorem test_LD11 : ends (machine { core with y := 0x10 } [0xB1, 0x20] [(0x020, 0xF8), (0x021, 0x06), (0x708, 0xA5)] [])
    ({ core with a := 0xA5, y := 0x10, pc := 0x0202, p := Status.unpack 0x84 }) [] 6 = true := by decide

/-- V row LD13: LDX $10,Y. -/
theorem test_LD13 : ends (machine { core with y := 0xF8 } [0xB6, 0x10] [(0x008, 0x80)] [])
    ({ core with x := 0x80, y := 0xF8, pc := 0x0202, p := Status.unpack 0x84 }) [] 4 = true := by decide

/-- V row LD14: LDX $0600,Y. -/
theorem test_LD14 : ends (machine { core with y := 0xFF } [0xBE, 0x00, 0x06] [(0x6FF, 0x00)] [])
    ({ core with y := 0xFF, pc := 0x0203, p := Status.unpack 0x06 }) [] 4 = true := by decide

/-- V row LD15: LDY $0680,X. -/
theorem test_LD15 : ends (machine { core with x := 0x80 } [0xBC, 0x80, 0x06] [(0x700, 0x01)] [])
    ({ core with x := 0x80, y := 0x01, pc := 0x0203 }) [] 5 = true := by decide

/-- V row LD16: LDY #$FF. -/
theorem test_LD16 : ends (machine core [0xA0, 0xFF] [] [])
    ({ core with y := 0xFF, pc := 0x0202, p := Status.unpack 0x84 }) [] 2 = true := by decide

/-- V row ST3: STA $06FF,X. -/
theorem test_ST3 : ends (machine { core with a := 0xEE, x := 0x01 } [0x9D, 0xFF, 0x06] [] [])
    ({ core with a := 0xEE, x := 0x01, pc := 0x0203 }) [(0x700, 0xEE)] 5 = true := by decide

/-- V row ST4: STA ($20),Y. -/
theorem test_ST4 : ends (machine { core with a := 0x11, y := 0x01 } [0x91, 0x20] [(0x020, 0x00), (0x021, 0x06)] [])
    ({ core with a := 0x11, y := 0x01, pc := 0x0202 }) [(0x601, 0x11)] 6 = true := by decide

/-- V row ST6: STA $0810. -/
theorem test_ST6 : ends (machine { core with a := 0x5C } [0x8D, 0x10, 0x08] [] [])
    ({ core with a := 0x5C, pc := 0x0203 }) [(0x010, 0x5C)] 4 = true := by decide

/-- V row ST7: STX $10,Y. -/
theorem test_ST7 : ends (machine { core with x := 0x77, y := 0x01 } [0x96, 0x10] [] [])
    ({ core with x := 0x77, y := 0x01, pc := 0x0202 }) [(0x011, 0x77)] 4 = true := by decide

/-- V row ST8: STY $10,X. -/
theorem test_ST8 : ends (machine { core with x := 0xF0, y := 0x88 } [0x94, 0x10] [] [])
    ({ core with x := 0xF0, y := 0x88, pc := 0x0202 }) [(0x000, 0x88)] 4 = true := by decide

/-- V row ST9: STX $0634. -/
theorem test_ST9 : ends (machine { core with x := 0x01 } [0x8E, 0x34, 0x06] [] [])
    ({ core with x := 0x01, pc := 0x0203 }) [(0x634, 0x01)] 4 = true := by decide

/-- V row TR1: TAX. -/
theorem test_TR1 : ends (machine { core with a := 0x80 } [0xAA] [] [])
    ({ core with a := 0x80, x := 0x80, pc := 0x0201, p := Status.unpack 0x84 }) [] 2 = true := by decide

/-- V row TR2: TAY. -/
theorem test_TR2 : ends (machine { core with y := 0x33 } [0xA8] [] [])
    ({ core with pc := 0x0201, p := Status.unpack 0x06 }) [] 2 = true := by decide

/-- V row TR3: TXA. -/
theorem test_TR3 : ends (machine { core with a := 0xFF, x := 0x7F, p := Status.unpack 0x84 } [0x8A] [] [])
    ({ core with a := 0x7F, x := 0x7F, pc := 0x0201 }) [] 2 = true := by decide

/-- V row TR4: TYA. -/
theorem test_TR4 : ends (machine { core with a := 0x01 } [0x98] [] [])
    ({ core with pc := 0x0201, p := Status.unpack 0x06 }) [] 2 = true := by decide

/-- V row TR5: TSX. -/
theorem test_TR5 : ends (machine core [0xBA] [] [])
    ({ core with x := 0xFD, pc := 0x0201, p := Status.unpack 0x84 }) [] 2 = true := by decide

/-- V row TR6: TXS. -/
theorem test_TR6 : ends (machine { core with p := Status.unpack 0x84 } [0x9A] [] [])
    ({ core with sp := 0x00, pc := 0x0201, p := Status.unpack 0x84 }) [] 2 = true := by decide

/-- V row AD4: ADC #$FF. -/
theorem test_AD4 : ends (machine { core with a := 0x80 } [0x69, 0xFF] [] [])
    ({ core with a := 0x7F, pc := 0x0202, p := Status.unpack 0x45 }) [] 2 = true := by decide

/-- V row AD5: ADC #$01. -/
theorem test_AD5 : ends (machine { core with a := 0x09, p := Status.unpack 0x0C } [0x69, 0x01] [] [])
    ({ core with a := 0x0A, pc := 0x0202, p := Status.unpack 0x0C }) [] 2 = true := by decide

/-- V row SB2: SBC #$B0. -/
theorem test_SB2 : ends (machine { core with a := 0x50, p := Status.unpack 0x05 } [0xE9, 0xB0] [] [])
    ({ core with a := 0xA0, pc := 0x0202, p := Status.unpack 0xC4 }) [] 2 = true := by decide

/-- V row SB7: SBC #$01. -/
theorem test_SB7 : ends (machine { core with a := 0x10, p := Status.unpack 0x0D } [0xE9, 0x01] [] [])
    ({ core with a := 0x0F, pc := 0x0202, p := Status.unpack 0x0D }) [] 2 = true := by decide

/-- V row LG2: AND #$80. -/
theorem test_LG2 : ends (machine { core with a := 0xFF, p := Status.unpack 0x45 } [0x29, 0x80] [] [])
    ({ core with a := 0x80, pc := 0x0202, p := Status.unpack 0xC5 }) [] 2 = true := by decide

/-- V row LG4: ORA $10. -/
theorem test_LG4 : ends (machine { core with a := 0x01 } [0x05, 0x10] [(0x010, 0x80)] [])
    ({ core with a := 0x81, pc := 0x0202, p := Status.unpack 0x84 }) [] 3 = true := by decide

/-- V row LG6: EOR #$FF. -/
theorem test_LG6 : ends (machine { core with a := 0x7F } [0x49, 0xFF] [] [])
    ({ core with a := 0x80, pc := 0x0202, p := Status.unpack 0x84 }) [] 2 = true := by decide

/-- V row CM4: CMP #$00. -/
theorem test_CM4 : ends (machine { core with a := 0x80, p := Status.unpack 0x44 } [0xC9, 0x00] [] [])
    ({ core with a := 0x80, pc := 0x0202, p := Status.unpack 0xC5 }) [] 2 = true := by decide

/-- V row CM8: CMP $06F0,X. -/
theorem test_CM8 : ends (machine { core with a := 0x01, x := 0x10 } [0xDD, 0xF0, 0x06] [(0x700, 0x01)] [])
    ({ core with a := 0x01, x := 0x10, pc := 0x0203, p := Status.unpack 0x07 }) [] 5 = true := by decide

/-- V row CM6: CPX #$10. -/
theorem test_CM6 : ends (machine { core with x := 0x0F } [0xE0, 0x10] [] [])
    ({ core with x := 0x0F, pc := 0x0202, p := Status.unpack 0x84 }) [] 2 = true := by decide

/-- V row CM7: CPY $10. -/
theorem test_CM7 : ends (machine { core with y := 0x80 } [0xC4, 0x10] [(0x010, 0x7F)] [])
    ({ core with y := 0x80, pc := 0x0202, p := Status.unpack 0x05 }) [] 3 = true := by decide

/-- V row BT1: BIT $10. -/
theorem test_BT1 : ends (machine { core with a := 0x01 } [0x24, 0x10] [(0x010, 0xC0)] [])
    ({ core with a := 0x01, pc := 0x0202, p := Status.unpack 0xC6 }) [] 3 = true := by decide

/-- V row BT2: BIT $0634. -/
theorem test_BT2 : ends (machine { core with a := 0xFF, p := Status.unpack 0xC4 } [0x2C, 0x34, 0x06] [(0x634, 0x3F)] [])
    ({ core with a := 0xFF, pc := 0x0203 }) [] 4 = true := by decide

/-- V row SH1: ASL A. -/
theorem test_SH1 : ends (machine { core with a := 0x80 } [0x0A] [] [])
    ({ core with pc := 0x0201, p := Status.unpack 0x07 }) [] 2 = true := by decide

/-- V row SH8: ASL $10. -/
theorem test_SH8 : ends (machine { core with a := 0x77 } [0x06, 0x10] [(0x010, 0x55)] [])
    ({ core with a := 0x77, pc := 0x0202, p := Status.unpack 0x84 }) [(0x010, 0xAA)] 5 = true := by decide

/-- V row SH3: LSR A. -/
theorem test_SH3 : ends (machine { core with a := 0x01, p := Status.unpack 0x84 } [0x4A] [] [])
    ({ core with pc := 0x0201, p := Status.unpack 0x07 }) [] 2 = true := by decide

/-- V row SH9: LSR $10,X. -/
theorem test_SH9 : ends (machine { core with x := 0x01 } [0x56, 0x10] [(0x011, 0x02)] [])
    ({ core with x := 0x01, pc := 0x0202 }) [(0x011, 0x01)] 6 = true := by decide

/-- V row SH4: ROL A. -/
theorem test_SH4 : ends (machine { core with a := 0x80, p := Status.unpack 0x05 } [0x2A] [] [])
    ({ core with a := 0x01, pc := 0x0201, p := Status.unpack 0x05 }) [] 2 = true := by decide

/-- V row SH10: ROL $0634. -/
theorem test_SH10 : ends (machine { core with p := Status.unpack 0x05 } [0x2E, 0x34, 0x06] [(0x634, 0x7F)] [])
    ({ core with pc := 0x0203, p := Status.unpack 0x84 }) [(0x634, 0xFF)] 6 = true := by decide

/-- V row SH6: ROR A. -/
theorem test_SH6 : ends (machine { core with a := 0x01, p := Status.unpack 0x05 } [0x6A] [] [])
    ({ core with a := 0x80, pc := 0x0201, p := Status.unpack 0x85 }) [] 2 = true := by decide

/-- V row SH12: ROR $06FF,X. -/
theorem test_SH12 : ends (machine { core with x := 0x01, p := Status.unpack 0x05 } [0x7E, 0xFF, 0x06] [(0x700, 0x00)] [])
    ({ core with x := 0x01, pc := 0x0203, p := Status.unpack 0x84 }) [(0x700, 0x80)] 7 = true := by decide

/-- V row IN1: INC $10. -/
theorem test_IN1 : ends (machine { core with p := Status.unpack 0x05 } [0xE6, 0x10] [(0x010, 0xFF)] [])
    ({ core with pc := 0x0202, p := Status.unpack 0x07 }) [(0x010, 0x00)] 5 = true := by decide

/-- V row IN2: INC $0634. -/
theorem test_IN2 : ends (machine core [0xEE, 0x34, 0x06] [(0x634, 0x7F)] [])
    ({ core with pc := 0x0203, p := Status.unpack 0x84 }) [(0x634, 0x80)] 6 = true := by decide

/-- V row IN3: DEC $10. -/
theorem test_IN3 : ends (machine core [0xC6, 0x10] [(0x010, 0x00)] [])
    ({ core with pc := 0x0202, p := Status.unpack 0x84 }) [(0x010, 0xFF)] 5 = true := by decide

/-- V row IN4: DEC $0600,X. -/
theorem test_IN4 : ends (machine { core with x := 0x02 } [0xDE, 0x00, 0x06] [(0x602, 0x01)] [])
    ({ core with x := 0x02, pc := 0x0203, p := Status.unpack 0x06 }) [(0x602, 0x00)] 7 = true := by decide

/-- V row IN5: INX. -/
theorem test_IN5 : ends (machine { core with x := 0xFF } [0xE8] [] [])
    ({ core with pc := 0x0201, p := Status.unpack 0x06 }) [] 2 = true := by decide

/-- V row IN6: INY. -/
theorem test_IN6 : ends (machine { core with y := 0x7F } [0xC8] [] [])
    ({ core with y := 0x80, pc := 0x0201, p := Status.unpack 0x84 }) [] 2 = true := by decide

/-- V row IN7: DEX. -/
theorem test_IN7 : ends (machine core [0xCA] [] [])
    ({ core with x := 0xFF, pc := 0x0201, p := Status.unpack 0x84 }) [] 2 = true := by decide

/-- V row IN8: DEY. -/
theorem test_IN8 : ends (machine { core with y := 0x01 } [0x88] [] [])
    ({ core with pc := 0x0201, p := Status.unpack 0x06 }) [] 2 = true := by decide

/-- V row BR2: BNE +4. -/
theorem test_BR2 : ends (machine core [0xD0, 0x04] [] [])
    ({ core with pc := 0x0206 }) [] 3 = true := by decide

/-- V row BR15: BNE +0 at 02FE. -/
theorem test_BR15 : ends (machine { core with pc := 0x02FE } [0xD0, 0x00] [] [])
    ({ core with pc := 0x0300 }) [] 3 = true := by decide

/-- V row BR3: BEQ -4. -/
theorem test_BR3 : ends (machine { core with p := Status.unpack 0x06 } [0xF0, 0xFC] [] [])
    ({ core with pc := 0x01FE, p := Status.unpack 0x06 }) [] 4 = true := by decide

/-- V row BR4: BEQ +127 at 02F0. -/
theorem test_BR4 : ends (machine { core with pc := 0x02F0, p := Status.unpack 0x06 } [0xF0, 0x7F] [] [])
    ({ core with pc := 0x0371, p := Status.unpack 0x06 }) [] 4 = true := by decide

/-- V row BR6: BPL +2. -/
theorem test_BR6 : ends (machine { core with p := Status.unpack 0x84 } [0x10, 0x02] [] [])
    ({ core with pc := 0x0202, p := Status.unpack 0x84 }) [] 2 = true := by decide

/-- V row BR7: BMI +2. -/
theorem test_BR7 : ends (machine { core with p := Status.unpack 0x84 } [0x30, 0x02] [] [])
    ({ core with pc := 0x0204, p := Status.unpack 0x84 }) [] 3 = true := by decide

/-- V row BR8: BVC +2. -/
theorem test_BR8 : ends (machine core [0x50, 0x02] [] [])
    ({ core with pc := 0x0204 }) [] 3 = true := by decide

/-- V row BR9: BVS +2. -/
theorem test_BR9 : ends (machine core [0x70, 0x02] [] [])
    ({ core with pc := 0x0202 }) [] 2 = true := by decide

/-- V row BR10: BCC +2. -/
theorem test_BR10 : ends (machine { core with p := Status.unpack 0x05 } [0x90, 0x02] [] [])
    ({ core with pc := 0x0202, p := Status.unpack 0x05 }) [] 2 = true := by decide

/-- V row BR12: BCC -128 at 0280. -/
theorem test_BR12 : ends (machine { core with pc := 0x0280 } [0x90, 0x80] [] [])
    ({ core with pc := 0x0202 }) [] 3 = true := by decide

/-- V row BR11: BCS +2. -/
theorem test_BR11 : ends (machine { core with p := Status.unpack 0x05 } [0xB0, 0x02] [] [])
    ({ core with pc := 0x0204, p := Status.unpack 0x05 }) [] 3 = true := by decide

/-- V row BR14: BCS +1 at 02FD. -/
theorem test_BR14 : ends (machine { core with pc := 0x02FD, p := Status.unpack 0x05 } [0xB0, 0x01] [] [])
    ({ core with pc := 0x0300, p := Status.unpack 0x05 }) [] 4 = true := by decide

/-- V row JP1: JMP $0634. -/
theorem test_JP1 : ends (machine core [0x4C, 0x34, 0x06] [] [])
    ({ core with pc := 0x0634 }) [] 3 = true := by decide

/-- V row JP3: JMP ($06FF). -/
theorem test_JP3 : ends (machine core [0x6C, 0xFF, 0x06] [(0x6FF, 0x78), (0x600, 0x05), (0x700, 0x07)] [])
    ({ core with pc := 0x0578 }) [] 5 = true := by decide

/-- V row JS2: JSR $0634. -/
theorem test_JS2 : ends (machine { core with sp := 0x00 } [0x20, 0x34, 0x06] [] [])
    ({ core with sp := 0xFE, pc := 0x0634 }) [(0x100, 0x02), (0x1FF, 0x02)] 6 = true := by decide

/-- V row JS4: RTS. -/
theorem test_JS4 : ends (machine { core with sp := 0xFF } [0x60] [(0x100, 0xFF), (0x101, 0xFF)] [])
    ({ core with sp := 0x01, pc := 0x0000 }) [] 6 = true := by decide

/-- V row SK1: PHA. -/
theorem test_SK1 : ends (machine { core with a := 0xAB } [0x48] [] [])
    ({ core with a := 0xAB, sp := 0xFC, pc := 0x0201 }) [(0x1FD, 0xAB)] 3 = true := by decide

/-- V row SK2: PHP. -/
theorem test_SK2 : ends (machine { core with p := Status.unpack 0x85 } [0x08] [] [])
    ({ core with sp := 0xFC, pc := 0x0201, p := Status.unpack 0x85 }) [(0x1FD, 0xB5)] 3 = true := by decide

/-- V row SK4: PLA. -/
theorem test_SK4 : ends (machine { core with a := 0x55, sp := 0xFC } [0x68] [(0x1FD, 0x00)] [])
    ({ core with pc := 0x0201, p := Status.unpack 0x06 }) [] 4 = true := by decide

/-- V row SK5: PLA. -/
theorem test_SK5 : ends (machine { core with sp := 0xFF } [0x68] [(0x100, 0x80)] [])
    ({ core with a := 0x80, sp := 0x00, pc := 0x0201, p := Status.unpack 0x84 }) [] 4 = true := by decide

/-- V row SK6: PLP. -/
theorem test_SK6 : ends (machine { core with sp := 0xFC, p := Status.unpack 0x00 } [0x28] [(0x1FD, 0xFF)] [])
    ({ core with pc := 0x0201, p := Status.unpack 0xCF }) [] 4 = true := by decide

/-- V row SK7: PLP. -/
theorem test_SK7 : ends (machine { core with sp := 0xFC, p := Status.unpack 0xCF } [0x28] [(0x1FD, 0x30)] [])
    ({ core with pc := 0x0201, p := Status.unpack 0x00 }) [] 4 = true := by decide

/-- V row FL1: CLC. -/
theorem test_FL1 : ends (machine { core with p := Status.unpack 0x05 } [0x18] [] [])
    ({ core with pc := 0x0201 }) [] 2 = true := by decide

/-- V row FL2: SEC. -/
theorem test_FL2 : ends (machine core [0x38] [] [])
    ({ core with pc := 0x0201, p := Status.unpack 0x05 }) [] 2 = true := by decide

/-- V row FL3: CLI. -/
theorem test_FL3 : ends (machine core [0x58] [] [])
    ({ core with pc := 0x0201, p := Status.unpack 0x00 }) [] 2 = true := by decide

/-- V row FL4: SEI. -/
theorem test_FL4 : ends (machine { core with p := Status.unpack 0x00 } [0x78] [] [])
    ({ core with pc := 0x0201 }) [] 2 = true := by decide

/-- V row FL5: CLD. -/
theorem test_FL5 : ends (machine { core with p := Status.unpack 0x0C } [0xD8] [] [])
    ({ core with pc := 0x0201 }) [] 2 = true := by decide

/-- V row FL6: SED. -/
theorem test_FL6 : ends (machine core [0xF8] [] [])
    ({ core with pc := 0x0201, p := Status.unpack 0x0C }) [] 2 = true := by decide

/-- V row FL7: CLV. -/
theorem test_FL7 : ends (machine { core with p := Status.unpack 0x44 } [0xB8] [] [])
    ({ core with pc := 0x0201 }) [] 2 = true := by decide

/-- V row FL8: NOP. -/
theorem test_FL8 : ends (machine core [0xEA] [] [])
    ({ core with pc := 0x0201 }) [] 2 = true := by decide

/-- V row SY1: BRK. -/
theorem test_SY1 : ends (machine { core with p := Status.unpack 0x01 } [0x00, 0xEA] [] [(0x7FFE, 0x00), (0x7FFF, 0x06)])
    ({ core with sp := 0xFA, pc := 0x0600, p := Status.unpack 0x05 }) [(0x1FD, 0x02), (0x1FC, 0x02), (0x1FB, 0x31)] 7 = true := by decide

/-- V row SY3: BRK at 07FF. -/
theorem test_SY3 : ends (machine { core with sp := 0x01, pc := 0x07FF, p := Status.unpack 0x00 } [0x00] [] [(0x7FFE, 0x00), (0x7FFF, 0x06)])
    ({ core with sp := 0xFE, pc := 0x0600 }) [(0x101, 0x08), (0x100, 0x01), (0x1FF, 0x30)] 7 = true := by decide

/-- V row SY4: RTI. -/
theorem test_SY4 : ends (machine { core with sp := 0xFA } [0x40] [(0x1FB, 0x31), (0x1FC, 0x02), (0x1FD, 0x02)] [])
    ({ core with pc := 0x0202, p := Status.unpack 0x01 }) [] 6 = true := by decide

/-- V row SY5: RTI. -/
theorem test_SY5 : ends (machine { core with sp := 0xFA, p := Status.unpack 0x00 } [0x40] [(0x1FB, 0xCF), (0x1FC, 0x34), (0x1FD, 0x06)] [])
    ({ core with pc := 0x0634, p := Status.unpack 0xCF }) [] 6 = true := by decide

/-! ## Interrupt sequences and the fault: rows IQ1, NM1, RS1, IL1 -/

/-- The vectors 0xFFFA to 0xFFFF as the rows have them, by ROM offset. -/
def vectors : List (Nat × Byte) :=
  [(0x7FFA, 0x00), (0x7FFB, 0x07), (0x7FFC, 0x00), (0x7FFD, 0x05), (0x7FFE, 0x00), (0x7FFF, 0x06)]

/-- A machine with a NOP at PC. -/
def atNop (c : Cpu) : State := machine c [0xEA] [] vectors

theorem test_IQ1 : ends (atNop { core with p := Status.unpack 0x01, irqReq := true })
    { core with sp := 0xFA, pc := 0x0600, p := Status.unpack 0x05 }
    [(0x1FD, 0x02), (0x1FC, 0x00), (0x1FB, 0x31)] 7 = true := by decide

theorem test_NM1 : ends (atNop { core with p := Status.unpack 0x84, nmiReq := true })
    { core with sp := 0xFA, pc := 0x0700, p := Status.unpack 0x84 }
    [(0x1FD, 0x02), (0x1FC, 0x00), (0x1FB, 0xB4)] 7 = true := by decide

theorem test_RS1 : ends (atNop { core with a := 0x12, sp := 0x80, p := Status.unpack 0x08, resetReq := true })
    { core with a := 0x12, sp := 0x7D, pc := 0x0500, p := Status.unpack 0x0C } [] 7 = true := by decide

theorem test_IL1 : (match step (machine { core with a := 0x11 } [0x02] [] []) with
    | .fault (.illegalOpcode b t) => decide (b = 0x02 ∧
        t.cpu = { core with a := 0x11, pc := 0x0201, fault := some 0x02 })
    | _ => false) = true := by decide

/-- Row RS1's bus trace (40_addressing_and_cycles.md R121; 60_exceptions.md R345): three stack reads in place of pushes. -/
theorem test_reset_bus : busTrace 7 (atNop { core with resetReq := true }) =
    [some (.read 0x0200), some (.read 0x0200), some (.read 0x01FD), some (.read 0x01FC), some (.read 0x01FB),
      some (.read 0xFFFC), some (.read 0xFFFD)] := by decide

/-- Row SH8 of table V-BUS: the old byte is written back before the new one. -/
theorem test_modify_bus : busTrace 5 (machine core [0x06, 0x10] [(0x10, 0x55)] []) =
    [some (.read 0x0200), some (.read 0x0201), some (.read 0x0010), some (.write 0x0010 0x55),
      some (.write 0x0010 0xAA)] := by decide

/-! ## Witnesses: concrete states and operands that meet the hypotheses of the statements -/

/-- NOP at 0x0200. -/
def nop : State := atNop core

/-- The machine inside NOP, before its second cycle. -/
def insideNop : State := atNop { core with control := .busy (InFlight.start .instr 0xEA) }

theorem witness_StepKeepsTheInvariant : nop.Inv ∧ ∃ t, step nop = .next t :=
  ⟨⟨by decide, by decide⟩, _, rfl⟩

theorem witness_StepKeepsTheInvariant_inside : insideNop.Inv ∧ ∃ t, step insideNop = .next t :=
  ⟨⟨by decide, by decide⟩, _, rfl⟩

theorem witness_CycleKeepsTheInvariant : insideNop.Inv ∧ ∃ t, cycle insideNop = .next t :=
  ⟨⟨by decide, by decide⟩, _, rfl⟩

theorem witness_EncodeOfDecode : decode [0xBD, 0x34, 0xF2, 0x00] = .ok (.ldaAbx 0xF234, [0x00]) := by decide

/-- LDA 0xF234,X at 0x0200. -/
def load : State := machine core [0xBD, 0x34, 0xF2] [] []

theorem witness_StepRunsTheDecodedInstruction : load.running ∧ load.con.peek 0x0200 = some 0xBD ∧
    load.con.peek 0x0201 = some 0x34 ∧ load.con.peek 0x0202 = some 0xF2 ∧
    decode [0xBD, 0x34, 0xF2] = .ok (.ldaAbx 0xF234, []) :=
  ⟨⟨rfl, rfl, rfl⟩, by decide, by decide, by decide, by decide⟩

theorem witness_StepRunsTheFetchedInstruction :
    (nop.running ∧ opcodeForm (nop.afterCheck.fetchedByte 0) = some (.one .nop)) ∧
    ((machine core [0xA9, 0x05] [] []).running ∧
      opcodeForm ((machine core [0xA9, 0x05] [] []).afterCheck.fetchedByte 0) = some (.two .ldaImm)) ∧
    (load.running ∧ opcodeForm (load.afterCheck.fetchedByte 0) = some (.three .ldaAbx)) ∧
    ((machine core [0x20, 0x34, 0x06] [] []).running ∧
      opcodeForm ((machine core [0x20, 0x34, 0x06] [] []).afterCheck.fetchedByte 0) = some (.call .jsr)) :=
  ⟨⟨⟨rfl, rfl, rfl⟩, rfl⟩, ⟨⟨rfl, rfl, rfl⟩, rfl⟩, ⟨⟨rfl, rfl, rfl⟩, rfl⟩, ⟨⟨rfl, rfl, rfl⟩, rfl⟩⟩

theorem witness_IllegalOpcodeFault : (machine core [0x02] [] []).running ∧
    0x02 = (machine core [0x02] [] []).afterCheck.fetchedByte 0 ∧ optab 0x02 = none ∧
    (machine core [0x02] [] []).con.peek 0x0200 = some 0x02 :=
  ⟨⟨rfl, rfl, rfl⟩, by decide, by decide, by decide⟩

theorem witness_FaultStateIsKept_step : ∃ t, (machine core [0xFF] [] []).running ∧
    step (machine core [0xFF] [] []) = .fault (.illegalOpcode 0xFF t) ∧
    0xFF = (machine core [0xFF] [] []).afterCheck.fetchedByte 0 ∧ optab 0xFF = none :=
  ⟨_, ⟨rfl, rfl, rfl⟩, rfl, by decide, by decide⟩

theorem witness_FaultStateIsKept : (atNop { core with fault := some 0x02 }).cpu.fault = some 0x02 := by decide

theorem witness_CyclesRefineTheStep : nop.cpu.control = .idle := by decide

theorem witness_RequestsWaitInsideASequence :
    insideNop.cpu.control = .busy (InFlight.start .instr 0xEA) ∧ ∃ t, cycle insideNop = .next t :=
  ⟨by decide, _, rfl⟩

/-- A machine for the addressing modes: a pointer across the end of page zero, an operand byte. -/
def pointers : State :=
  machine { core with x := 0x01, y := 0x10 } [0xEA] [(0xFF, 0x34), (0x00, 0x06), (0x634, 0xAB)] []

theorem witness_EffectiveAddressAndOperand :
    (pointers.con.peek (word 0 (0xFE + pointers.cpu.x)) = some 0x34 ∧
      pointers.con.peek (word 0 (0xFE + pointers.cpu.x + 1)) = some 0x06) ∧
    (pointers.con.peek (word 0 0xFF) = some 0x34 ∧ pointers.con.peek (word 0 (0xFF + 1)) = some 0x06) ∧
    pointers.con.peek (pointers.ea (.abs 0x0634)) = some 0xAB := by decide

theorem witness_PageCrossTest : pointers.crosses (.aby 0x06F0) = true ∧ pointers.crosses (.aby 0x06EF) = false ∧
    pointers.crosses (.abx 0x06FF) = true ∧ pointers.crosses (.abx 0x06FE) = false := by decide

theorem witness_AdcResultAndFlags : (Instr.adcImm 0x50).mnemonic = .adc ∧ (Instr.adcIzy 0xFF).mnemonic = .adc := by
  decide

theorem witness_SbcResultAndFlags : (Instr.sbcImm 0x50).mnemonic = .sbc ∧ (Instr.sbcAbx 0xFFFF).mnemonic = .sbc := by
  decide

theorem witness_AddSubtractIdentities : (Status.unpack 0x01).c = true := by decide

theorem witness_LogicResultAndFlags : (Instr.andImm 0x0F).mnemonic = .and ∧ (Instr.oraZp 0xFF).mnemonic = .ora ∧
    (Instr.eorIzx 0x00).mnemonic = .eor := by decide

theorem witness_CompareFlags : (Instr.cmpAbx 0x06F0).mnemonic = .cmp ∧ (Instr.cpxImm 0x10).mnemonic = .cpx ∧
    (Instr.cpyZp 0x10).mnemonic = .cpy := by decide

theorem witness_BitTestFlags : (Instr.bitAbs 0xFFFF).mnemonic = .bit ∧ (Instr.bitZp 0x10).mnemonic = .bit := by decide

theorem witness_LoadResultAndFlags : (Instr.ldaIzy 0x20).mnemonic = .lda ∧ (Instr.ldxZpy 0x10).mnemonic = .ldx ∧
    (Instr.ldyImm 0xFF).mnemonic = .ldy := by decide

theorem witness_StoreWritesTheRegister : nop.con.wf = true ∧ (Instr.staAbx 0xFFFF).mnemonic = .sta ∧
    (Instr.stxZpy 0xFF).mnemonic = .stx ∧ (Instr.styZp 0x00).mnemonic = .sty := by decide

/-- The two clauses of `State.storedOnly`: below the bank registers, and at one of an MMC1. -/
theorem witness_StoreWritesTheRegister_bank :
    ¬ nop.con.bankRegister 0xFFFF ∧
    Console.bankRegister 0x8000 { nop.con with cart := { Cart.blank with kind := .mmc1 } } :=
  ⟨by unfold Console.bankRegister; decide, by unfold Console.bankRegister; decide⟩

theorem witness_TransferResultAndFlags : ∃ (s : State) (c : Cpu) (v : Byte),
    (Instr.tax = .tax ∧ v = s.cpu.a ∧ c = { s.cpu with x := v }) ∧ v = 0x80 :=
  ⟨atNop { core with a := 0x80 }, { core with a := 0x80, x := 0x80 }, 0x80, by decide⟩

theorem witness_ModifyResultAndFlags : nop.con.wf = true ∧
    ((Instr.aslZp 0x10).mem = some (.zp 0x10) ∧ (Instr.aslZp 0x10).mnemonic = .asl) ∧
    ((Instr.lsrZpx 0xFF).mem = some (.zpx 0xFF) ∧ (Instr.lsrZpx 0xFF).mnemonic = .lsr) ∧
    ((Instr.rolAbs 0x8000).mem = some (.abs 0x8000) ∧ (Instr.rolAbs 0x8000).mnemonic = .rol) ∧
    ((Instr.rorAbx 0x06FF).mem = some (.abx 0x06FF) ∧ (Instr.rorAbx 0x06FF).mnemonic = .ror) ∧
    ((Instr.incZp 0x00).mem = some (.zp 0x00) ∧ (Instr.incZp 0x00).mnemonic = .inc) ∧
    ((Instr.decAbs 0x2007).mem = some (.abs 0x2007) ∧ (Instr.decAbs 0x2007).mnemonic = .dec) := by decide

theorem witness_ModifyResultAndFlags_old : pointers.con.peek (pointers.ea (.abs 0x0634)) = some 0xAB := by decide

theorem witness_AccumulatorShiftResultAndFlags : ∃ (s : State) (r : Byte) (carry : Bool),
    (Instr.rorAcc = .rorAcc ∧ r = BitVec.ofNat 8 (s.cpu.a.toNat / 2 + (if s.cpu.p.c then 128 else 0)) ∧
      carry = s.cpu.a.getLsbD 0) ∧ r = 0xC0 ∧ carry = true :=
  ⟨atNop { core with a := 0x81, p := Status.unpack 0x01 }, 0xC0, true, by decide⟩

theorem witness_IndexStepResultAndFlags : ∃ (s : State) (c : Cpu) (r : Byte),
    (Instr.inx = .inx ∧ r = s.cpu.x + 1 ∧ c = { s.cpu with x := r }) ∧ r = 0x00 :=
  ⟨atNop { core with x := 0xFF }, core, 0x00, by decide⟩

theorem witness_BranchTargetAndFrame : ∃ (s : State) (cond : Bool),
    (Instr.bpl 0x80 = .bpl 0x80 ∧ cond = !s.cpu.p.n) ∧ cond = false :=
  ⟨atNop { core with p := Status.unpack 0x80 }, false, by decide⟩

/-- The pointer's second byte wraps inside its page, and behind a device port the bytes are the bus's. -/
theorem witness_JumpTargets : ∃ s : State, s.con.peek 0x06FF = some 0x78 ∧
    s.con.peek (word (hi 0x06FF) (lo 0x06FF + 1)) = some 0x05 :=
  ⟨machine core [0x6C, 0xFF, 0x06] [(0x6FF, 0x78), (0x600, 0x05), (0x700, 0x07)] [], by decide⟩

/-- JSR 0x0634 at 0x0200 once its first two bytes are fetched. -/
def call : State := machine { core with pc := 0x0202 } [0x06] [] []

theorem witness_JsrPushesAndJumps : call.con.wf = true ∧
    (call.callSubroutine 0x34).con.peek call.cpu.pc = some 0x06 := by decide

theorem witness_CallThenReturn : ∃ t u : State, call.con.wf = true ∧ exec (.jsr 0x0634) call = .next t ∧
    u.cpu.sp = t.cpu.sp ∧ u.con.ram = t.con.ram :=
  ⟨_, call.callSubroutine 0x34, by decide, rfl, rfl, rfl⟩

theorem witness_PushInstructions : ∃ (s : State) (v : Byte), s.con.wf = true ∧
    (Instr.php = .php ∧ v = s.cpu.p.pack 0b11) ∧ v = 0x34 :=
  ⟨nop, 0x34, by decide⟩

theorem witness_FlagInstructions : ∃ (s : State) (p : Status),
    (Instr.cli = .cli ∧ p = { s.cpu.p with i := false }) ∧ p ≠ s.cpu.p :=
  ⟨nop, Status.unpack 0x00, by decide⟩

theorem witness_BrkTakesTheSoftwareInterrupt : nop.con.wf = true := by decide

theorem witness_InterruptPriority :
    (∃ s : State, s.cpu.fault = none ∧ s.cpu.control = .idle ∧ s.cpu.resetReq = true ∧ s.cpu.nmiReq = true) ∧
    (∃ s : State, s.cpu.fault = none ∧ s.cpu.control = .idle ∧ s.cpu.resetReq = false ∧ s.cpu.nmiReq = true) ∧
    (∃ s : State, s.cpu.fault = none ∧ s.cpu.control = .idle ∧ s.cpu.resetReq = false ∧ s.cpu.nmiReq = false ∧
      s.cpu.irqReq = true ∧ s.cpu.p.i = false) :=
  ⟨⟨atNop { core with resetReq := true, nmiReq := true }, by decide⟩, ⟨atNop { core with nmiReq := true }, by decide⟩,
    ⟨atNop { core with irqReq := true, p := Status.unpack 0x00 }, by decide⟩⟩

theorem witness_IrqAndNmiSequences : nop.con.wf = true ∧ vectorOf .irq = 0xFFFE ∧ vectorOf .nmi = 0xFFFA := by decide

theorem witness_MaskedIrqIsHeldOrDropped : ∃ s t : State, s.cpu.fault = none ∧ s.cpu.control = .idle ∧
    s.cpu.resetReq = false ∧ s.cpu.nmiReq = false ∧ s.cpu.irqReq = true ∧ s.cpu.p.i = true ∧ step s = .next t :=
  ⟨atNop { core with irqReq := true }, _, rfl, rfl, rfl, rfl, rfl, rfl, rfl⟩

theorem witness_InterruptThenReturn : ∃ u : State, nop.con.wf = true ∧
    u.cpu.sp = (nop.runSequence .nmi).cpu.sp ∧ u.con.ram = (nop.runSequence .nmi).con.ram :=
  ⟨nop.runSequence .nmi, by decide, rfl, rfl⟩

theorem witness_OnlyTheNamedInstructionsWriteEachFlag : (∃ t, exec .nop nop = .next t) ∧
    Instr.nop.mnemonic ∉ ([.adc, .sbc, .cmp, .cpx, .cpy, .asl, .rol, .lsr, .ror, .clc, .sec, .plp, .rti]
      : List Mnemonic) ∧
    Instr.nop.mnemonic ∉ ([.sei, .cli, .plp, .rti, .brk] : List Mnemonic) ∧
    Instr.nop.mnemonic ∉ ([.sed, .cld, .plp, .rti] : List Mnemonic) ∧
    Instr.nop.mnemonic ∉ ([.adc, .sbc, .bit, .clv, .plp, .rti] : List Mnemonic) :=
  ⟨⟨_, rfl⟩, by decide, by decide, by decide, by decide⟩

theorem witness_OnlyTheNamedInstructionsWriteEachRegister : (∃ t, exec (.staZp 0x10) nop = .next t) ∧
    (Instr.staZp 0x10).mnemonic ∉ ([.lda, .pla, .txa, .tya, .adc, .sbc, .and, .ora, .eor] : List Mnemonic) ∧
    (Instr.staZp 0x10).mode ≠ .acc :=
  ⟨⟨_, rfl⟩, by decide, by decide⟩

theorem witness_InstructionsLeaveRequestsAlone : ∃ t, exec .brk nop = .next t := ⟨_, rfl⟩

theorem witness_OnlyStoringInstructionsChangeMemory : (∃ t, exec .aslAcc nop = .next t) ∧
    Instr.aslAcc.mnemonic ∉ ([.sta, .stx, .sty, .inc, .dec, .pha, .php, .jsr, .brk] : List Mnemonic) ∧
    Instr.aslAcc.mnemonic ∈ ([.asl, .lsr, .rol, .ror] : List Mnemonic) ∧ Instr.aslAcc.mode = .acc :=
  ⟨⟨_, rfl⟩, by decide, by decide, by decide⟩

theorem witness_RomBytesNeverChange :
    ∃ t, step (machine core [0x8D, 0x00, 0x80] [] [(0, 0x5A)]) = .next t := ⟨_, rfl⟩

theorem witness_RamIsMirrored : nop.con.wf = true ∧
    ((0x1FFF : Addr).toNat < 0x2000 ∧ (0x07FF : Addr).toNat < 0x2000 ∧
      (0x1FFF : Addr).toNat % 0x800 = (0x07FF : Addr).toNat % 0x800) ∧
    (0x1FFF : Addr).toNat % 0x800 ≠ (0x0000 : Addr).toNat % 0x800 := by decide

theorem witness_PpuAddressPorts : (0x3EFF : BitVec 15).toNat % 0x4000 < 0x3F00 ∧
    0x3F00 ≤ (0x3F00 : BitVec 15).toNat % 0x4000 ∧ 0x3F00 ≤ (0x7FFF : BitVec 15).toNat % 0x4000 ∧
    (Ppu.powerOn 0).grace = 0 ∧ (6 : BitVec 3) ∈ ([5, 6] : List (BitVec 3)) ∧
    (7 : BitVec 3) ∉ ([5, 6] : List (BitVec 3)) ∧ (7 : BitVec 3) ≠ 2 := by decide

theorem witness_PpuGracePeriod : (Ppu.powerOn 1).grace ≠ 0 ∧ (Ppu.powerOn 0).grace = 0 ∧
    (0 : BitVec 3) ∈ ([0, 1, 5, 6] : List (BitVec 3)) ∧ (6 : BitVec 3) ∈ ([0, 1, 5, 6] : List (BitVec 3)) := by decide

theorem witness_PpuDotCounterAndFlags : ∃ p q w r u : Ppu, p.cycle.val < 340 ∧
    (q.cycle.val = 340 ∧ q.scanline ≠ 261) ∧ (w.cycle.val = 340 ∧ w.scanline = 261) ∧
    (r.scanline = 241 ∧ r.cycle = 0) ∧ u.scanline = 261 ∧ u.cycle = 0 :=
  ⟨{ Ppu.powerOn 0 with cycle := 339 }, { Ppu.powerOn 0 with cycle := 340, scanline := 260 },
    { Ppu.powerOn 0 with cycle := 340, scanline := 261 },
    { Ppu.powerOn 0 with scanline := 241 }, { Ppu.powerOn 0 with scanline := 261 }, by decide⟩

theorem witness_SpriteEvaluationLimit : ∃ (inRange : Byte → Bool) (oam : Memory),
    ∀ k, k < 9 → inRange (oam.read (4 * k)) = true :=
  ⟨fun y => y == 0, [], fun _ _ => rfl⟩

theorem witness_Mmc1SerialWrites : ({ Mmc1.powerOn with lock := 1 } : Mmc1).lock ≠ 0 ∧ Mmc1.powerOn.lock = 0 ∧
    (0x80 : Byte).getLsbD 7 = true ∧ Mmc1.powerOn.count = 0 ∧ (0x01 : Byte).getLsbD 7 = false ∧ 2 ≤ 2 ∧
    ((0x8000 : Addr).getLsbD 14 = false ∧ (0x8000 : Addr).getLsbD 13 = false) ∧
    ((0xA000 : Addr).getLsbD 14 = false ∧ (0xA000 : Addr).getLsbD 13 = true) ∧
    ((0xC000 : Addr).getLsbD 14 = true ∧ (0xC000 : Addr).getLsbD 13 = false) ∧
    ((0xFFFF : Addr).getLsbD 14 = true ∧ (0xFFFF : Addr).getLsbD 13 = true) := by decide

theorem witness_ControllerReadsEightButtons : 0 < 8 ∧ 7 < 8 := by decide

theorem witness_DeviceWriteDispatch : 0x2000 ≤ (0x2000 : Addr).toNat ∧ (0x3FFF : Addr).toNat < 0x4000 ∧
    (0x4000 ≤ (0x4000 : Addr).toNat ∧ (0x4000 : Addr).toNat < 0x4014) ∧
    (0x4000 ≤ (0x4013 : Addr).toNat ∧ (0x4013 : Addr).toNat < 0x4014) ∧
    0x2000 ≤ (0x4014 : Addr).toNat ∧ 0x2000 ≤ (0x4015 : Addr).toNat ∧ 0x2000 ≤ (0x4016 : Addr).toNat ∧
    0x2000 ≤ (0x4017 : Addr).toNat ∧
    (0x4018 ≤ (0x4018 : Addr).toNat ∧ (0x4018 : Addr).toNat < 0x6000) ∧
    (0x4018 ≤ (0x5FFF : Addr).toNat ∧ (0x5FFF : Addr).toNat < 0x6000) ∧
    (0x6000 ≤ (0x6000 : Addr).toNat ∧ (0x7FFF : Addr).toNat < 0x8000) ∧ 0x8000 ≤ (0x8000 : Addr).toNat ∧
    (∃ c : Console, c.cart.kind = .nrom) ∧ (∃ c : Console, c.cart.kind = .cnrom) ∧
    (∃ c : Console, c.cart.kind = .mmc1) :=
  ⟨by decide, by decide, by decide, by decide, by decide, by decide, by decide, by decide, by decide, by decide,
    by decide, by decide, ⟨nop.con, rfl⟩,
    ⟨{ nop.con with cart := { Cart.blank with kind := .cnrom } }, rfl⟩,
    ⟨{ nop.con with cart := { Cart.blank with kind := .mmc1 } }, rfl⟩⟩

/-! ## The devices -/

/-- X6 (60_exceptions.md R391): nine sprites in range, eight found, overflow. -/
theorem test_nine_sprites : (scanOam (fun y => y == 0x10) (fill [] ((List.range 9).map (fun k => (4 * k, 0x10))))
    256 0 []).2 = true := by decide

/-- X7 (60_exceptions.md R401): five writes 1, 0, 1, 1, 0 to 0xE000 put 0b01101 into the PRG register. -/
theorem test_mmc1_commit : (([0x01, 0x00, 0x01, 0x01, 0x00] : List Byte).foldl
    (fun m v => m.serialWrite 0xE000 v) Mmc1.powerOn).prgBank = 0b01101 := by decide

/-- X7: a write with bit 7 set drops what was collected. -/
theorem test_mmc1_reset : (([0x01, 0x01, 0x80] : List Byte).foldl
    (fun m v => m.serialWrite 0xE000 v) Mmc1.powerOn).count = 0 := by decide

/-- R400: CNROM shows the whole 8 KB bank that the written byte names. -/
theorem test_cnrom_bank : ({ Cart.blank with kind := .cnrom, chrBanks := 4, chrBank := 3 } : Cart).chrOffset 0x1FFF =
    0x7FFF := by decide

/-- R385: the last slot is loaded with the attribute byte and the X of the last sprite of secondary OAM. -/
theorem test_sprite_slot_loaded :
    let p := { Ppu.powerOn 0 with secondaryOam := fill [] [(28, 0x10), (30, 0x41), (31, 0x77)] }
    (p.loadedSlot Cart.blank 7).attr = 0x41 ∧ (p.loadedSlot Cart.blank 7).xCounter = 0x77 := by decide

/-- R385: with the toggle set a PPUADDR write lands in the low byte alone. -/
theorem test_ppuaddr_low_half :
    (Ppu.writeAddr 0x34 { Ppu.powerOn 0 with t := 0x21FF, w := true }).t = 0x2134 := by decide

/-- R385, its bit positions: 0x7D then 0x5E on PPUSCROLL are coarse X 15, fine X 5, coarse Y 11, fine Y 6. -/
theorem test_ppuscroll_halves :
    let p := ((Ppu.powerOn 0).writeScroll 0x7D).writeScroll 0x5E
    p.t = 0b110000101101111 ∧ p.fineX = 5 ∧ p.w = false := by decide

/-- R389: "a control bit" at a position and a level of its own. -/
theorem test_control_bit : [0x00, 0x04, 0xFB].map (ControlBit.mk 2 true : ControlBit 8).on = [false, true, false] ∧
    [0x00, 0x04, 0xFB].map (ControlBit.mk 2 false : ControlBit 8).on = [true, false, true] := by decide

/-- R394, 90_conflicts.md C2: with nothing pending the APU status byte is zero. -/
theorem test_apu_status_zero : Apu.powerOn.status = 0 := by decide

/-- R381, 90_conflicts.md C4: one APU call per two CPU cycles can be set, and is one call in the second of them. -/
theorem test_apu_every_other_cycle :
    (Ratio.mk 1 2).due 0 = 0 ∧ (Ratio.mk 1 2).carry 0 = 1 ∧ (Ratio.mk 1 2).due 1 = 1 ∧ (Ratio.mk 1 2).carry 1 = 0 := by
  decide

/-! ## Descriptors and the debug port (10_state.md R43, R44; 60_exceptions.md R364) -/

/-- `performNextInstruction()` returns the descriptor of the operation that retired. -/
theorem test_descriptor_returned : (match performNext load with
    | .next (_, d) => decide (d = some (.instruction 0xBD .lda .abx))
    | _ => false) = true := by decide

theorem test_descriptor_of_a_sequence : (match performNext (atNop { core with nmiReq := true }) with
    | .next (_, d) => decide (d = some (.sequence .nmi))
    | _ => false) = true := by decide

/-- Idle, the descriptor is the entry of the byte at PC. -/
theorem test_descriptor_idle : load.descriptor = some (.instruction 0xBD .lda .abx) := by decide

/-- A raw debug read of a stored byte; and one of a controller port, which shifts it only where the parameter says. -/
theorem test_debug_read : load.debugValue 0x0A01 = 0x34 ∧
    ([DebugPorts.quiet, .bus].map (fun d => (({ load with
        con := { load.con with pad1 := { Pad.powerOn with left := 8 } }
        params := { load.params with debugPorts := d } } : State).debugRead 0x4016).con.pad1.left)) = [8, 7] := by
  decide

end Sys2Proof.Tests
end

section
/-! The state family (10_state.md), part 1: what any instruction does to the core, said once (`exec_ran`), and the
statements over the whole instruction set that follow from it. -/

namespace Sys2Proof.Machine

/-! ## What an instruction can do to the core -/

/-- What an operation can make of the core `c`, `mode` the addressing mode; the exact operand bytes and targets are
in the lemmas of the operations. -/
inductive Operation.Effect (mode : Mode) (c : Cpu) : Operation → Cpu → Prop
  | read (f : Byte → Cpu → Cpu) (m : Byte) : Effect mode c (.read f) (f m c)
  | write (reg : Cpu → Byte) : Effect mode c (.write reg) c
  | modify (new : Byte → Status → Byte) (flags : Byte → Status → Status) (old : Byte) :
      Effect mode c (.modify new flags) { c with p := flags old c.p }
  | accumulator (new : Byte → Status → Byte) (flags : Byte → Status → Status) (acc : mode = .acc) :
      Effect mode c (.modify new flags) { c with a := new c.a c.p, p := flags c.a c.p }
  | implied (f : Cpu → Cpu) : Effect mode c (.implied f) (f c)
  | branch (cond : Status → Bool) (pc : Addr) : Effect mode c (.branch cond) { c with pc := pc }
  | push (reg : Cpu → Byte) : Effect mode c (.push reg) { c with sp := c.sp - 1 }
  | pull (f : Byte → Cpu → Cpu) (v : Byte) : Effect mode c (.pull f) (f v { c with sp := c.sp + 1 })
  | jump (pc : Addr) : Effect mode c .jump { c with pc := pc }
  | call (pc : Addr) : Effect mode c .call { c with sp := c.sp - 2, pc := pc }
  | subroutineReturn (pc : Addr) : Effect mode c .subroutineReturn { c with sp := c.sp + 2, pc := pc }
  | softwareInterrupt (pc : Addr) :
      Effect mode c .softwareInterrupt { c with sp := c.sp - 3, p := { c.p with i := true }, pc := pc }
  | interruptReturn (p : Status) (pc : Addr) :
      Effect mode c .interruptReturn { c with sp := c.sp + 3, p := p, pc := pc }

/-- What the end `t` of an operation begun in `s` has in common for all instructions. -/
structure Operation.Ran (op : Operation) (mode : Mode) (s t : State) : Prop where
  cpu : op.Effect mode s.cpu t.cpu
  params : t.params = s.params
  wf : s.con.wf = true → t.con.wf = true

theorem Operation.Ran.of_reads {op : Operation} {mode : Mode} {s t : State} {n : Nat}
    (hc : op.Effect mode s.cpu t.cpu) (hr : State.Reads n s t) : op.Ran mode s t :=
  ⟨hc, hr.params, hr.wf⟩

theorem writeClass_ran (mode : Mode) {reg : Cpu → Byte} {m : Mem} {s t : State}
    (h : writeClass reg m s = .next t) : (Operation.write reg).Ran mode s t := by
  obtain ⟨u, hu, rfl⟩ := writeClass_spec reg m s
  obtain rfl : s.operandWrite m (reg s.cpu) = t := Host.Outcome.next.inj (hu.symm.trans h)
  refine ⟨?_, State.operandWrite_params m _ s, State.operandWrite_wf m _⟩
  rw [State.operandWrite_cpu]
  exact .write reg

theorem modifyClass_ran (mode : Mode) {new : Byte → Status → Byte} {flags : Byte → Status → Status} {m : Mem}
    {s t : State} (h : modifyClass new flags m s = .next t) : (Operation.modify new flags).Ran mode s t := by
  obtain ⟨u, hu, hcpu, hcon, hparams⟩ := modifyClass_spec new flags m s
  obtain rfl : u = t := Host.Outcome.next.inj (hu.symm.trans h)
  exact ⟨hcpu ▸ .modify new flags _, hparams, fun hw => hcon ▸ State.operandModify_wf _ _ hw⟩

theorem accumulatorClass_ran {mode : Mode} (hacc : mode = .acc) {new : Byte → Status → Byte}
    {flags : Byte → Status → Status} {s t : State} (h : accumulatorClass new flags s = .next t) :
    (Operation.modify new flags).Ran mode s t := by
  obtain ⟨u, hu, hcpu, hreads⟩ := accumulatorClass_spec new flags s
  obtain rfl : u = t := Host.Outcome.next.inj (hu.symm.trans h)
  exact .of_reads (hcpu ▸ .accumulator new flags hacc) hreads

theorem callSubroutine_ran (mode : Mode) (low : Byte) (s : State) :
    Operation.call.Ran mode s (s.callSubroutine low) := by
  refine ⟨?_, State.callSubroutine_params low s, State.callSubroutine_wf low⟩
  rw [State.callSubroutine_eq, State.setPc_cpu, State.read_cpu, State.callPushed_cpu]
  exact .call _

theorem pushRows_ran (mode : Mode) (reg : Cpu → Byte) (s : State) :
    (Operation.push reg).Ran mode s (s.pushRows reg) := by
  refine ⟨?_, State.pushRows_params reg s, State.pushRows_wf reg⟩
  rw [State.pushRows, State.push_cpu, State.dummyRead_cpu]
  exact .push reg

theorem softwareInterrupt_ran (mode : Mode) (s : State) :
    Operation.softwareInterrupt.Ran mode s s.softwareInterrupt := by
  refine ⟨?_, State.takeInterrupt_params _ _ s.fetch,
    fun hw => State.takeInterrupt_wf _ _ ((State.fetch_reads s).wf hw)⟩
  have hsp : s.cpu.sp - 1 - 1 - 1 = s.cpu.sp - 3 := by bv_omega
  have hcpu := Operation.Effect.softwareInterrupt (mode := mode) (c := s.cpu) s.softwareInterrupt.cpu.pc
  rw [← hsp] at hcpu
  exact hcpu

/-- What an instruction that completes has done, by the operation of its mnemonic. -/
theorem exec_ran {i : Instr} {s t : State} (h : exec i s = .next t) : i.mnemonic.operation.Ran i.mode s t := by
  by_cases hind : ∃ w, i = .jmpInd w
  · obtain ⟨w, rfl⟩ := hind
    cases h
    exact .of_reads (State.jumpIndirect_cpu w s ▸ .jump _) (State.jumpIndirect_reads w s)
  have hx := (exec_eq_meaning (fun w hw => hind ⟨w, hw⟩) s).symm.trans h
  generalize hop : i.mnemonic.operation = op at hx ⊢
  cases op with
  | read f =>
    obtain ⟨m, u, -, hu, hcpu, n, hreads⟩ := exec_read_spec hop s
    obtain rfl : u = t := Host.Outcome.next.inj (hu.symm.trans h)
    exact .of_reads (hcpu ▸ .read f m) hreads
  | write reg =>
    obtain ⟨m, -, hm⟩ := exec_of_write hop s
    exact writeClass_ran _ (hm.symm.trans h)
  | modify new flags =>
    obtain ⟨m, -, hm⟩ | ⟨-, hacc, hm⟩ := exec_of_modify hop s
    · exact modifyClass_ran _ (hm.symm.trans h)
    · exact accumulatorClass_ran hacc (hm.symm.trans h)
  | implied f =>
    obtain ⟨u, hu, hcpu, hreads⟩ := impliedClass_spec f s
    cases hu.symm.trans hx
    exact .of_reads (hcpu ▸ .implied f) hreads
  | branch cond =>
    obtain ⟨u, hu, hcpu, hreads⟩ := branchClass_spec cond (BitVec.ofNat 8 i.operand) s
    cases hu.symm.trans hx
    exact .of_reads (hcpu ▸ .branch cond _) hreads
  | push reg => cases hx; exact pushRows_ran _ reg s
  | pull f =>
    cases hx
    exact .of_reads (State.pullRows_cpu f s ▸ .pull f _) (State.pullRows_reads f s)
  | jump => cases hx; exact ⟨.jump _, rfl, id⟩
  | call => cases hx; exact callSubroutine_ran _ _ s
  | subroutineReturn =>
    cases hx
    exact .of_reads (State.returnFromSubroutine_cpu s ▸ .subroutineReturn _) (State.returnFromSubroutine_reads s)
  | softwareInterrupt => cases hx; exact softwareInterrupt_ran _ s
  | interruptReturn =>
    cases hx
    exact .of_reads (State.interruptReturn_cpu s ▸ .interruptReturn _ _) (State.interruptReturn_reads s)

/-! ## Which mnemonic writes what (10_state.md R20 to R29, R32)

Each proof strikes out the named mnemonics; the effect of every other one leaves the field by definition. -/

namespace Operation.Effect

variable {n : Mnemonic} {mode : Mode} {c d : Cpu}

theorem keeps_c (h : n.operation.Effect mode c d)
    (hn : n ∉ ([.adc, .sbc, .cmp, .cpx, .cpy, .asl, .rol, .lsr, .ror, .clc, .sec, .plp, .rti] : List Mnemonic)) :
    d.p.c = c.p.c := by
  cases n <;> simp at hn
  all_goals cases h <;> rfl

theorem keeps_zn (h : n.operation.Effect mode c d)
    (hn : n ∉ ([.lda, .ldx, .ldy, .tax, .tay, .txa, .tya, .tsx, .adc, .sbc, .and, .ora, .eor] ++
        [.cmp, .cpx, .cpy, .bit, .asl, .lsr, .rol, .ror, .inc, .dec, .inx, .iny, .dex, .dey, .pla, .plp, .rti]
        : List Mnemonic)) :
    d.p.z = c.p.z ∧ d.p.n = c.p.n := by
  cases n <;> simp at hn
  all_goals cases h; exact ⟨rfl, rfl⟩

theorem keeps_i (h : n.operation.Effect mode c d)
    (hn : n ∉ ([.sei, .cli, .plp, .rti, .brk] : List Mnemonic)) :
    d.p.i = c.p.i := by
  cases n <;> simp at hn
  all_goals cases h <;> rfl

theorem keeps_d (h : n.operation.Effect mode c d)
    (hn : n ∉ ([.sed, .cld, .plp, .rti] : List Mnemonic)) :
    d.p.d = c.p.d := by
  cases n <;> simp at hn
  all_goals cases h <;> rfl

theorem keeps_v (h : n.operation.Effect mode c d)
    (hn : n ∉ ([.adc, .sbc, .bit, .clv, .plp, .rti] : List Mnemonic)) :
    d.p.v = c.p.v := by
  cases n <;> simp at hn
  all_goals cases h <;> rfl

theorem keeps_a (h : n.operation.Effect mode c d)
    (hn : n ∉ ([.lda, .pla, .txa, .tya, .adc, .sbc, .and, .ora, .eor] : List Mnemonic)) (hmode : mode ≠ .acc) :
    d.a = c.a := by
  cases n <;> simp at hn
  case asl | lsr | rol | ror | inc | dec =>
    cases h with
    | modify => rfl
    | accumulator _ _ hacc => exact absurd hacc hmode
  all_goals cases h; rfl

theorem keeps_x (h : n.operation.Effect mode c d)
    (hn : n ∉ ([.ldx, .tax, .tsx, .inx, .dex] : List Mnemonic)) :
    d.x = c.x := by
  cases n <;> simp at hn
  all_goals cases h <;> rfl

theorem keeps_y (h : n.operation.Effect mode c d)
    (hn : n ∉ ([.ldy, .tay, .iny, .dey] : List Mnemonic)) :
    d.y = c.y := by
  cases n <;> simp at hn
  all_goals cases h <;> rfl

theorem keeps_sp (h : n.operation.Effect mode c d)
    (hn : n ∉ ([.pha, .php, .pla, .plp, .txs, .jsr, .rts, .brk, .rti] : List Mnemonic)) :
    d.sp = c.sp := by
  cases n <;> simp at hn
  all_goals cases h <;> rfl

theorem keeps_pc (h : n.operation.Effect mode c d)
    (hn : n ∉ ([.jmp, .jsr, .rts, .rti, .brk, .bpl, .bmi, .bvc, .bvs, .bcc, .bcs, .bne, .beq] : List Mnemonic)) :
    d.pc = c.pc := by
  cases n <;> simp at hn
  all_goals cases h <;> rfl

/-- The requests, the fault and the control state belong to the interrupt check, the fetch and the host, and no
mnemonic writes them (R34, R36, R37). -/
theorem keeps_requests (h : n.operation.Effect mode c d) :
    d.resetReq = c.resetReq ∧ d.nmiReq = c.nmiReq ∧ d.irqReq = c.irqReq ∧ d.fault = c.fault ∧
      d.control = c.control := by
  cases n
  all_goals cases h <;> exact ⟨rfl, rfl, rfl, rfl, rfl⟩

end Operation.Effect

/-- Settles O47: each clause is the flag's own frame lemma, on the effect the instruction has. -/
theorem onlyTheNamedInstructionsWriteEachFlag : Obligations.OnlyTheNamedInstructionsWriteEachFlag := by
  intro i s t h
  have heffect := (exec_ran h).cpu
  exact ⟨heffect.keeps_c, heffect.keeps_zn, heffect.keeps_i, heffect.keeps_d, heffect.keeps_v⟩

/-- Settles O48: each clause is the register's own frame lemma, on the effect the instruction has. -/
theorem onlyTheNamedInstructionsWriteEachRegister : Obligations.OnlyTheNamedInstructionsWriteEachRegister := by
  intro i s t h
  have heffect := (exec_ran h).cpu
  exact ⟨heffect.keeps_a, heffect.keeps_x, heffect.keeps_y, heffect.keeps_sp, heffect.keeps_pc⟩

/-- Settles O49: no mnemonic's effect is on these fields, and no operation is on the parameters. -/
theorem instructionsLeaveRequestsAlone : Obligations.InstructionsLeaveRequestsAlone := by
  intro i s t h
  have hran := exec_ran h
  obtain ⟨hreset, hnmi, hirq, hfault, hcontrol⟩ := hran.cpu.keeps_requests
  exact ⟨hreset, hnmi, hirq, hfault, hcontrol, hran.params⟩

end Sys2Proof.Machine
end

section
/-! The state family (10_state.md), part 2: the sequence tables are closed, so that a row leads back to idle or to a
row of the same sequence; the invariant under `cycle` and `step`. -/

namespace Sys2Proof.Machine

/-! ## What a row makes of the core -/

/-- The register update of a row, `v` the byte its cycle got. -/
def Row.update (v : Byte) (c : Cpu) : Row → Cpu
  | .read _ f => f v c
  | .write _ _ f => f c
  | .dummyRead _ f => f c
  | .dummyWrite _ _ f => f c

theorem Row.perform_cpu (r : Row) (s : State) : ∃ v, (r.perform s).cpu = r.update v s.cpu := by
  cases r with
  | read a f => exact ⟨s.value a, rfl⟩
  | write a v f => exact ⟨v, rfl⟩
  | dummyRead a f => exact ⟨0, by simp [Row.perform, Row.update]⟩
  | dummyWrite a v f => exact ⟨v, by simp [Row.perform, Row.update]⟩

/-! ## Closed tables (40_addressing_and_cycles.md R120) -/

/-- A sequence table: the row of an execution state, if it has one. -/
abbrev RowTable := InFlight → Cpu → Option Row

/-- The execution state of the core `c` after row `k` of a table: over, or at the next row of the same sequence,
which the table has whatever the registers. -/
def RowTable.GoesOn (table : RowTable) (k : InFlight) (c : Cpu) : Prop :=
  c.control = .idle ∨
    ∃ k', c.control = .busy k' ∧ k'.seq = k.seq ∧ k'.ir = k.ir ∧ k'.t = k.t + 1 ∧ k'.t ≤ 7 ∧
      ∀ d, (table k' d).isSome = true

/-- Only the rows of the same sequence and opcode count. -/
theorem RowTable.GoesOn.of_rows {table table' : RowTable} {k : InFlight} {c : Cpu} (h : table.GoesOn k c)
    (hrows : ∀ k' d, k'.seq = k.seq → k'.ir = k.ir → table' k' d = table k' d) : table'.GoesOn k c := by
  obtain hidle | ⟨k', hk, hseq, hir, ht, h7, hrow⟩ := h
  · exact .inl hidle
  · exact .inr ⟨k', hk, hseq, hir, ht, h7, fun d => hrows k' d hseq hir ▸ hrow d⟩

/-- Every row of the table goes on to a row of the table, or ends the sequence. -/
def RowTable.Closed (table : RowTable) : Prop :=
  ∀ k c r v, table k c = some r → table.GoesOn k (r.update v c)

theorem RowTable.goesOn_idle {table : RowTable} {k : InFlight} {c : Cpu} (h : c.control = .idle) :
    table.GoesOn k c := .inl h

/-- The control state of a row that does not end its sequence: the latches `k'`, at the next row. -/
theorem RowTable.goesOn_busy {table : RowTable} {k k' : InFlight} {c : Cpu} (h : c.control = .busy k')
    (hseq : k'.seq = k.seq) (hir : k'.ir = k.ir) (ht : k'.t = k.t + 1) (hlt : k.t < 7)
    (hrow : ∀ k'' d, k''.t = k.t + 1 → (table k'' d).isSome = true) : table.GoesOn k c :=
  .inr ⟨k', h, hseq, hir, ht, by omega, fun d => hrow k' d ht⟩

/-! ## The rows that end an operand instruction (R127 to R133) -/

/-- The access classes of R124: read, write, modify. -/
def Operation.accesses : Operation → Bool
  | .read _ => true
  | .write _ => true
  | .modify _ _ => true
  | _ => false

/-- The modify class, whose tail has two rows more. -/
def Operation.modifies : Operation → Bool
  | .modify _ _ => true
  | _ => false

theorem tailRow_zero_isSome {op : Operation} (h : op.accesses = true) (k : InFlight) (c : Cpu) :
    (tailRow op 0 k c).isSome = true := by
  cases op with
  | read | write | modify => rfl
  | _ => cases h

theorem tailRow_accesses {op : Operation} {j : Nat} {k : InFlight} {c : Cpu} {r : Row}
    (h : tailRow op j k c = some r) : op.accesses = true := by
  cases op with
  | read | write | modify => rfl
  | _ => cases h

/-- A tail row in a table that has the rest of the tail in the rows that follow. -/
theorem RowTable.goesOn_tail {table : RowTable} {op : Operation} {j : Nat} {k : InFlight} {c : Cpu} {r : Row}
    (v : Byte) (hr : tailRow op j k c = some r) (ht : op.modifies = true → k.t ≤ j + 5)
    (hnext : ∀ k' d, k'.t = k.t + 1 → table k' d = tailRow op (j + 1) k' d) : table.GoesOn k (r.update v c) := by
  unfold tailRow at hr
  split at hr
  case h_1 | h_2 | h_5 => cases hr; exact goesOn_idle rfl
  case h_3 | h_4 =>
    have hlt := ht rfl
    cases hr
    exact goesOn_busy rfl rfl rfl rfl (by omega) (fun k' d h => by rw [hnext k' d h]; rfl)
  case h_6 => cases hr

theorem pageRow_isSome (op : Operation) (k : InFlight) (c : Cpu) : (pageRow op k c).isSome = true := by
  unfold pageRow
  split <;> rfl

/-- The row that corrects the page, in a table that has the whole tail in the rows that follow. -/
theorem RowTable.goesOn_page {table : RowTable} {op : Operation} {k : InFlight} {c : Cpu} {r : Row} (v : Byte)
    (hop : op.accesses = true) (hr : pageRow op k c = some r) (ht : k.t < 7)
    (hnext : ∀ k' d, k'.t = k.t + 1 → table k' d = tailRow op 0 k' d) : table.GoesOn k (r.update v c) := by
  unfold pageRow at hr
  split at hr
  case h_1 => cases hr; exact goesOn_idle rfl
  case h_2 =>
    cases hr
    exact goesOn_busy rfl rfl rfl rfl ht
      (fun k' d h => by rw [hnext k' d h]; exact tailRow_zero_isSome hop k' d)

/-! ## The tables of the operand modes -/

theorem zpRow_closed {op : Operation} (hop : op.accesses = true) : RowTable.Closed (zpRow op) := by
  intro k c r v hr
  unfold zpRow at hr
  split at hr
  case h_1 ht =>
    cases hr
    exact RowTable.goesOn_busy rfl rfl rfl rfl (by omega)
      (fun k' d h => by rw [zpRow, h, ht]; exact tailRow_zero_isSome hop k' d)
  case h_2 t ht =>
    exact RowTable.goesOn_tail v hr (fun _ => by omega) (fun k' d h => by rw [zpRow, h, ht])
  case h_3 => cases hr

theorem zpIndexedRow_closed (idx : Cpu → Byte) {op : Operation} (hop : op.accesses = true) :
    RowTable.Closed (fun k c => zpIndexedRow (idx c) op k c) := by
  intro k c r v hr
  simp only [zpIndexedRow] at hr
  split at hr
  case h_1 ht =>
    cases hr
    exact RowTable.goesOn_busy rfl rfl rfl rfl (by omega)
      (fun k' d h => by simp only [zpIndexedRow]; rw [h, ht]; rfl)
  case h_2 ht =>
    cases hr
    exact RowTable.goesOn_busy rfl rfl rfl rfl (by omega)
      (fun k' d h => by simp only [zpIndexedRow]; rw [h, ht]; exact tailRow_zero_isSome hop k' d)
  case h_3 t ht =>
    exact RowTable.goesOn_tail v hr (fun _ => by omega) (fun k' d h => by simp only [zpIndexedRow]; rw [h, ht])
  case h_4 => cases hr

theorem absIndexedRow_closed (idx : Cpu → Byte) {op : Operation} (hop : op.accesses = true) :
    RowTable.Closed (fun k c => absIndexedRow (idx c) op k c) := by
  intro k c r v hr
  simp only [absIndexedRow] at hr
  split at hr
  case h_1 ht =>
    cases hr
    exact RowTable.goesOn_busy rfl rfl rfl rfl (by omega)
      (fun k' d h => by simp only [absIndexedRow]; rw [h, ht]; rfl)
  case h_2 ht =>
    cases hr
    exact RowTable.goesOn_busy rfl rfl rfl rfl (by omega)
      (fun k' d h => by simp only [absIndexedRow]; rw [h, ht]; exact pageRow_isSome op k' d)
  case h_3 ht =>
    exact RowTable.goesOn_page v hop hr (by omega) (fun k' d h => by simp only [absIndexedRow]; rw [h, ht])
  case h_4 t ht =>
    exact RowTable.goesOn_tail v hr (fun _ => by omega) (fun k' d h => by simp only [absIndexedRow]; rw [h, ht])
  case h_5 => cases hr

/-- (zp,X) has no modify class, whose tail would not end by row 7. -/
theorem izxRow_closed {op : Operation} (hop : op.accesses = true) (hm : op.modifies = false) :
    RowTable.Closed (izxRow op) := by
  intro k c r v hr
  unfold izxRow at hr
  split at hr
  case h_1 ht | h_2 ht | h_3 ht =>
    cases hr
    exact RowTable.goesOn_busy rfl rfl rfl rfl (by omega) (fun k' d h => by rw [izxRow, h, ht]; rfl)
  case h_4 ht =>
    cases hr
    exact RowTable.goesOn_busy rfl rfl rfl rfl (by omega)
      (fun k' d h => by rw [izxRow, h, ht]; exact tailRow_zero_isSome hop k' d)
  case h_5 t ht =>
    exact RowTable.goesOn_tail v hr (by simp [hm]) (fun k' d h => by rw [izxRow, h, ht])
  case h_6 => cases hr

/-- (zp),Y has no modify class, whose tail would not end by row 7. -/
theorem izyRow_closed {op : Operation} (hop : op.accesses = true) (hm : op.modifies = false) :
    RowTable.Closed (izyRow op) := by
  intro k c r v hr
  unfold izyRow at hr
  split at hr
  case h_1 ht | h_2 ht =>
    cases hr
    exact RowTable.goesOn_busy rfl rfl rfl rfl (by omega) (fun k' d h => by rw [izyRow, h, ht]; rfl)
  case h_3 ht =>
    cases hr
    exact RowTable.goesOn_busy rfl rfl rfl rfl (by omega)
      (fun k' d h => by rw [izyRow, h, ht]; exact pageRow_isSome op k' d)
  case h_4 ht =>
    exact RowTable.goesOn_page v hop hr (by omega) (fun k' d h => by rw [izyRow, h, ht])
  case h_5 t ht =>
    exact RowTable.goesOn_tail v hr (by simp [hm]) (fun k' d h => by rw [izyRow, h, ht])
  case h_6 => cases hr

/-- ABS has the operand instructions, JMP and JSR. -/
def Operation.absolute : Operation → Bool
  | .jump => true
  | .call => true
  | op => op.accesses

theorem absRow_three_isSome (op : Operation) {k : InFlight} (h : k.t = 3) (c : Cpu) :
    (absRow op k c).isSome = true := by
  cases op <;> simp [absRow, h]

theorem absRow_tail {op : Operation} (hop : op.accesses = true) {j : Nat} {k : InFlight} (h : k.t = j + 4) (c : Cpu) :
    absRow op k c = tailRow op j k c := by
  cases op with
  | read | write | modify => simp [absRow, h]
  | _ => cases hop

theorem absRow_closed {op : Operation} (hop : op.absolute = true) : RowTable.Closed (absRow op) := by
  intro k c r v hr
  unfold absRow at hr
  split at hr
  case h_1 ht =>
    cases hr
    exact RowTable.goesOn_busy rfl rfl rfl rfl (by omega) (fun k' d h => absRow_three_isSome _ (by omega) d)
  case h_2 | h_6 => cases hr; exact RowTable.goesOn_idle rfl
  case h_3 ht | h_4 ht | h_5 ht =>
    cases hr
    exact RowTable.goesOn_busy rfl rfl rfl rfl (by omega) (fun k' d h => by simp [absRow, h, ht])
  case h_7 op _ _ hjump hcall ht =>
    -- the fetch of the high address byte, which neither JMP nor JSR makes here
    cases hr
    have hacc : op.accesses = true := by
      cases op with
      | jump => exact (hjump rfl).elim
      | call => exact (hcall rfl).elim
      | _ => exact hop
    exact RowTable.goesOn_busy rfl rfl rfl rfl (by omega)
      (fun k' d h => by rw [absRow_tail (j := 0) hacc (by omega)]; exact tailRow_zero_isSome hacc k' d)
  case h_8 op _ t _ _ _ ht =>
    have hacc := tailRow_accesses hr
    exact RowTable.goesOn_tail v hr (fun _ => by omega) (fun k' d h => absRow_tail hacc (by omega) d)
  case h_9 => cases hr

/-! ## The tables of the other modes and of the sequences -/

theorem relRow_closed (op : Operation) : RowTable.Closed (relRow op) := by
  intro k c r v hr
  unfold relRow at hr
  split at hr
  case h_1 ht | h_2 ht =>
    cases hr
    simp only [Row.update]
    split
    · exact RowTable.goesOn_busy rfl rfl rfl rfl (by omega) (fun k' d h => by simp [relRow, h, ht])
    · exact RowTable.goesOn_idle rfl
  case h_3 => cases hr; exact RowTable.goesOn_idle rfl
  case h_4 => cases hr

theorem indRow_closed : RowTable.Closed indRow := by
  intro k c r v hr
  unfold indRow at hr
  split at hr
  case h_1 ht | h_2 ht | h_3 ht =>
    cases hr
    exact RowTable.goesOn_busy rfl rfl rfl rfl (by omega) (fun k' d h => by rw [indRow, h, ht]; rfl)
  case h_4 => cases hr; exact RowTable.goesOn_idle rfl
  case h_5 => cases hr

theorem accRow_closed (op : Operation) : RowTable.Closed (accRow op) := by
  intro k c r v hr
  unfold accRow at hr
  split at hr
  · cases hr; exact RowTable.goesOn_idle rfl
  · cases hr

theorem immRow_closed (op : Operation) : RowTable.Closed (immRow op) := by
  intro k c r v hr
  unfold immRow at hr
  split at hr
  · cases hr; exact RowTable.goesOn_idle rfl
  · cases hr

/-- The two rows of a vector, in a table that has them as its rows 6 and 7. -/
theorem RowTable.goesOn_vector {table : RowTable} {vec : Addr} {k : InFlight} {c : Cpu} {r : Row} (v : Byte)
    (hr : vectorRow vec k = some r) (hnext : ∀ k' d, k'.t = 7 → table k' d = vectorRow vec k') :
    table.GoesOn k (r.update v c) := by
  unfold vectorRow at hr
  split at hr
  case h_1 ht =>
    cases hr
    exact goesOn_busy rfl rfl rfl rfl (by omega)
      (fun k' d h => by
        have h7 : k'.t = 7 := by omega
        rw [hnext k' d h7, vectorRow, h7]; rfl)
  case h_2 => cases hr; exact goesOn_idle rfl
  case h_3 => cases hr

/-- A hardware sequence has the rows 2 to 7 (60_exceptions.md R345). -/
theorem sequenceRow_isSome (b54 : BitVec 2) (q : Seq) {k : InFlight} (h2 : 2 ≤ k.t) (h7 : k.t ≤ 7) (c : Cpu) :
    (sequenceRow b54 q k c).isSome = true := by
  obtain h | h | h | h | h | h : k.t = 2 ∨ k.t = 3 ∨ k.t = 4 ∨ k.t = 5 ∨ k.t = 6 ∨ k.t = 7 := by omega
  all_goals cases q <;> simp [sequenceRow, vectorRow, h]

theorem sequenceRow_seven (b54 : BitVec 2) (q : Seq) {k : InFlight} (h : k.t = 7) (c : Cpu) :
    sequenceRow b54 q k c = vectorRow (vectorOf q) k := by
  cases q <;> simp [sequenceRow, h]

theorem sequenceRow_closed (b54 : BitVec 2) (q : Seq) : RowTable.Closed (sequenceRow b54 q) := by
  intro k c r v hr
  unfold sequenceRow at hr
  split at hr
  -- the rows of the vector; every other one goes on to the next
  case h_8 => exact RowTable.goesOn_vector v hr (fun k' d h => sequenceRow_seven b54 _ h d)
  all_goals
    cases hr
    exact RowTable.goesOn_busy rfl rfl rfl rfl (by omega)
      (fun k' d h => sequenceRow_isSome b54 _ (by omega) (by omega) d)

theorem impRow_closed (op : Operation) : RowTable.Closed (impRow op) := by
  intro k c r v hr
  unfold impRow at hr
  split at hr
  -- the rows that retire, those of BRK's vector, no row; every other one goes on to the next of its operation
  case h_1 | h_3 | h_6 | h_11 | h_16 => cases hr; exact RowTable.goesOn_idle rfl
  case h_21 => exact RowTable.goesOn_vector v hr (fun k' d h => by simp [impRow, h])
  case h_22 => cases hr
  all_goals
    rename_i ht
    cases hr
    exact RowTable.goesOn_busy rfl rfl rfl rfl (by omega) (fun k' d h => by simp [impRow, vectorRow, h, ht])

/-! ## The table of an instruction -/

/-- The modes an operation has in the opcode table (30_encoding.md R98). -/
def Operation.fits (op : Operation) (mode : Mode) : Bool :=
  match mode, op with
  | .acc, .modify _ _ => true
  | .imm, .read _ => true
  | .ind, .jump => true
  | .rel, .branch _ => true
  | .abs, op => op.absolute
  | .zp, op => op.accesses
  | .zpx, op => op.accesses
  | .zpy, op => op.accesses
  | .abx, op => op.accesses
  | .aby, op => op.accesses
  | .izx, op => op.accesses && !op.modifies
  | .izy, op => op.accesses && !op.modifies
  | .imp, .implied _ => true
  | .imp, .push _ => true
  | .imp, .pull _ => true
  | .imp, .subroutineReturn => true
  | .imp, .softwareInterrupt => true
  | .imp, .interruptReturn => true
  | _, _ => false

theorem operation_fits (i : Instr) : i.mnemonic.operation.fits i.mode = true := by cases i <;> rfl

/-- Every table entry is that of an instruction, so its operation has its mode. -/
theorem optab_fits {b : Byte} {mn : Mnemonic} {mode : Mode} (h : optab b = some (mn, mode)) :
    mn.operation.fits mode = true := by
  obtain ⟨f, -, hf⟩ := Option.map_eq_some_iff.1 h
  cases hf
  exact operation_fits f.entry

theorem instrRow_closed {op : Operation} {mode : Mode} (h : op.fits mode = true) :
    RowTable.Closed (instrRow op mode) := by
  cases mode with
  | imp => exact impRow_closed op
  | acc => exact accRow_closed op
  | imm => exact immRow_closed op
  | ind => exact indRow_closed
  | rel => exact relRow_closed op
  | zp => exact zpRow_closed h
  | zpx => exact zpIndexedRow_closed Cpu.x h
  | zpy => exact zpIndexedRow_closed Cpu.y h
  | abs => exact absRow_closed h
  | abx => exact absIndexedRow_closed Cpu.x h
  | aby => exact absIndexedRow_closed Cpu.y h
  | izx =>
    obtain ⟨hacc, hmod⟩ := Bool.and_eq_true_iff.1 h
    exact izxRow_closed hacc (by simpa using hmod)
  | izy =>
    obtain ⟨hacc, hmod⟩ := Bool.and_eq_true_iff.1 h
    exact izyRow_closed hacc (by simpa using hmod)

theorem instrRow_two_isSome {op : Operation} {mode : Mode} (h : op.fits mode = true) {k : InFlight} (ht : k.t = 2)
    (c : Cpu) : (instrRow op mode k c).isSome = true := by
  cases mode with
  | imp => cases op <;> simp_all [Operation.fits, instrRow, impRow]
  | acc => cases op <;> simp_all [Operation.fits, instrRow, accRow]
  | imm => cases op <;> simp_all [Operation.fits, instrRow, immRow]
  | rel => cases op <;> simp_all [Operation.fits, instrRow, relRow]
  | zp => simp [instrRow, zpRow, ht]
  | zpx | zpy => simp [instrRow, zpIndexedRow, ht]
  | abs => simp [instrRow, absRow, ht]
  | abx | aby => simp [instrRow, absIndexedRow, ht]
  | ind => simp [instrRow, indRow, ht]
  | izx => simp [instrRow, izxRow, ht]
  | izy => simp [instrRow, izyRow, ht]

/-! ## The control state -/

theorem row_of_instr {k : InFlight} {mn : Mnemonic} {mode : Mode} (hs : k.seq = .instr)
    (ho : optab k.ir = some (mn, mode)) (p : Params) (c : Cpu) :
    k.row p c = instrRow mn.operation mode k c := by
  rw [InFlight.row, hs]
  simp only [ho]

theorem row_of_sequence {k : InFlight} (hs : k.seq ≠ .instr) (p : Params) (c : Cpu) :
    k.row p c = sequenceRow p.pushBitsHw k.seq k c := by
  rw [InFlight.row]
  cases hq : k.seq with
  | instr => exact absurd hq hs
  | _ => rfl

/-- The tables together are closed: the sequence and the opcode stay the same from row to row. -/
theorem row_closed (p : Params) : RowTable.Closed (fun k c => k.row p c) := by
  intro k c r v hr
  by_cases hs : k.seq = .instr
  · cases ho : optab k.ir with
    | none => simp [InFlight.row, hs, ho] at hr
    | some e =>
      obtain ⟨mn, mode⟩ := e
      simp only [row_of_instr hs ho] at hr
      exact (instrRow_closed (optab_fits ho) k c r v hr).of_rows (fun k' d hseq hir =>
        row_of_instr (hseq.trans hs) ((congrArg optab hir).trans ho) p d)
  · simp only [row_of_sequence hs] at hr
    exact (sequenceRow_closed p.pushBitsHw k.seq k c r v hr).of_rows (fun k' d hseq _ => by
      simp only [row_of_sequence (hseq ▸ hs), hseq])

theorem controlOk_of_idle {s : State} (h : s.cpu.control = .idle) : s.controlOk = true := by
  simp [State.controlOk, h]

theorem controlOk_of_busy {s : State} {k : InFlight} (h : s.cpu.control = .busy k) :
    s.controlOk = true ↔ (2 ≤ k.t ∧ k.t ≤ 7) ∧ (k.row s.params s.cpu).isSome = true := by
  simp [State.controlOk, h]

/-- A row performed from a control state with a row leaves one. -/
theorem Row.perform_controlOk {s : State} {k : InFlight} {r : Row} (h2 : 2 ≤ k.t)
    (hr : k.row s.params s.cpu = some r) : (r.perform s).controlOk = true := by
  obtain ⟨v, hcpu⟩ := r.perform_cpu s
  obtain hidle | ⟨k', hk, -, -, ht, h7, hrow⟩ := row_closed s.params k s.cpu r v hr
  · exact controlOk_of_idle (hcpu ▸ hidle)
  · rw [controlOk_of_busy (hcpu ▸ hk), Row.perform_params]
    exact ⟨⟨by omega, h7⟩, hrow _⟩

theorem selected_ne_instr {c : Cpu} {q : Seq} (h : c.selected = some q) : q ≠ .instr := by
  rintro rfl
  unfold Cpu.selected at h
  split at h
  · cases h
  · split at h
    · cases h
    · split at h <;> cases h

/-! ## The invariant -/

@[simp] theorem InFlight.start_t (q : Seq) (ir : Byte) : (InFlight.start q ir).t = 2 := rfl

/-- Row 1 of a hardware sequence leaves the core at row 2. -/
theorem startSequence_inv {s : State} {q : Seq} (hq : q ≠ .instr) (hw : s.con.wf = true) :
    (s.startSequence q).Inv := by
  refine ⟨(State.dummyRead_reads _ s).wf hw, (controlOk_of_busy (k := .start q 0) rfl).2 ⟨by simp, ?_⟩⟩
  rw [row_of_sequence hq]
  exact sequenceRow_isSome _ q (by simp) (by simp) _

/-- Row 1 of an instruction leaves the core at row 2 of the opcode's table, or faults. -/
theorem startInstruction_cases (s : State) :
    (∃ b t, s.startInstruction = .fault (.illegalOpcode b t)) ∨
    (∃ b e, optab b = some e ∧
      s.startInstruction = .next (s.fetch.mapCpu (Cpu.setControl (.busy (InFlight.start .instr b))))) := by
  unfold State.startInstruction
  split
  · exact .inl ⟨_, _, rfl⟩
  · exact .inr ⟨_, _, by assumption, rfl⟩

theorem startInstruction_inv {s : State} {b : Byte} {e : Mnemonic × Mode} (ho : optab b = some e)
    (hw : s.con.wf = true) : (s.fetch.mapCpu (Cpu.setControl (.busy (InFlight.start .instr b)))).Inv := by
  refine ⟨(State.fetch_reads s).wf hw, (controlOk_of_busy (k := .start .instr b) rfl).2 ⟨by simp, ?_⟩⟩
  rw [row_of_instr rfl ho]
  exact instrRow_two_isSome (optab_fits ho) rfl _

/-- Settles O5, by the cases of the cycle: a row of a closed table, or row 1 of a sequence or of an instruction. -/
theorem cycleKeepsTheInvariant : Obligations.CycleKeepsTheInvariant := by
  intro s hinv
  obtain ⟨hw, hctl⟩ := hinv
  cases hf : s.cpu.fault with
  | some b => simp [cycle_of_fault hf]
  | none =>
    cases hc : s.cpu.control with
    | busy k =>
      obtain ⟨⟨h2, -⟩, hrow⟩ := (controlOk_of_busy hc).1 hctl
      obtain ⟨r, hr⟩ := Option.isSome_iff_exists.1 hrow
      rw [cycle_of_busy hf hc hr]
      refine ⟨by simp, fun t ht => ?_⟩
      cases ht
      exact ⟨r.perform_wf hw, r.perform_controlOk h2 hr⟩
    | idle =>
      cases hq : s.cpu.selected with
      | some q =>
        rw [cycle_of_selected hf hc hq]
        refine ⟨by simp, fun t ht => ?_⟩
        cases ht
        exact startSequence_inv (selected_ne_instr hq) hw
      | none =>
        rw [cycle_of_running ⟨hf, hc, hq⟩]
        obtain ⟨b, u, hs⟩ | ⟨b, e, ho, hs⟩ := startInstruction_cases s.afterCheck
        · simp [hs]
        · rw [hs]
          refine ⟨by simp, fun t ht => ?_⟩
          cases ht
          exact startInstruction_inv ho hw

/-- A run to idle keeps the invariant, cycle by cycle. -/
theorem runToIdle_inv : ∀ (n : Nat) {s t : State}, s.Inv → runToIdle n s = .next t → t.Inv
  | 0, _, _, _, h => by cases h
  | n + 1, s, t, hinv, h => by
    cases hc : cycle s with
    | next u =>
      have hu : u.Inv := (cycleKeepsTheInvariant s hinv).2 u hc
      rw [runToIdle_next hc] at h
      cases hu' : u.cpu.control with
      | idle => simp only [hu'] at h; cases h; exact hu
      | busy k => simp only [hu'] at h; exact runToIdle_inv n hu h
    | fault f => simp [runToIdle, hc] at h
    | refused r => simp [runToIdle, hc] at h

theorem takeInterrupt_control (b54 : BitVec 2) (vec : Addr) (s : State) :
    (s.takeInterrupt b54 vec).cpu.control = s.cpu.control := rfl

/-- A hardware sequence leaves the control state as it was. -/
theorem runSequence_control (q : Seq) (s : State) : (s.runSequence q).cpu.control = s.cpu.control := by
  by_cases hq : q = .reset
  · subst hq
    obtain ⟨l, h, -, -, hcpu⟩ := State.runReset_cpu s
    rw [hcpu]
  · rw [State.runSequence_eq hq, takeInterrupt_control, State.sequenceHead_cpu]

/-- Settles O4, by the cases of the step: the rest of a sequence row by row (O5), a whole hardware sequence, or an
instruction, which leaves the core idle (`exec_ran`). -/
theorem stepKeepsTheInvariant : Obligations.StepKeepsTheInvariant := by
  intro s t hinv h
  have hw := hinv.1
  cases hf : s.cpu.fault with
  | some b => cases (step_of_fault hf).symm.trans h
  | none =>
    cases hc : s.cpu.control with
    | busy k => exact runToIdle_inv 7 hinv ((step_of_busy hf hc).symm.trans h)
    | idle =>
      have hidle : s.afterCheck.cpu.control = .idle := by simp [hc]
      cases hq : s.cpu.selected with
      | some q =>
        cases (step_of_selected hf hc hq).symm.trans h
        exact ⟨State.runSequence_wf q hw, controlOk_of_idle ((runSequence_control q _).trans hidle)⟩
      | none =>
        rw [step_of_running ⟨hf, hc, hq⟩] at h
        obtain ⟨b, hfetch⟩ | ⟨i, hfetch⟩ := fetchInstr_cases s.afterCheck
        · rw [hfetch] at h
          cases h
        · rw [hfetch] at h
          have hran := exec_ran h
          obtain ⟨-, -, -, -, hctl⟩ := hran.cpu.keeps_requests
          rw [State.afterFetch_cpu] at hctl
          exact ⟨hran.wf ((State.afterFetch_reads _ _).wf hw), controlOk_of_idle (hctl.trans hidle)⟩

end Sys2Proof.Machine
end

section
/-! The state family (10_state.md), part 3: power-on and the status byte. -/

namespace Sys2Proof.Machine

/-- Settles O1: the values are those of `Cpu.powerOn`, which looks at neither argument (R46). -/
theorem powerOnCoreState : Obligations.PowerOnCoreState := by
  intro cart params
  exact ⟨rfl, rfl, rfl, rfl, rfl, rfl, rfl, rfl, rfl, rfl, rfl, rfl, rfl, rfl, rfl, rfl⟩

/-- Power-on with a well-formed cartridge has the invariant, whatever the parameters. -/
theorem powerOn_inv {cart : Cart} (h : cart.wf = true) (params : Params) : (State.powerOn cart params).Inv :=
  ⟨Console.wf_parts.2 ⟨rfl, rfl, h, rfl⟩, controlOk_of_idle rfl⟩

theorem blank_wf : Cart.blank.wf = true := by decide

/-- Settles O3: `State.reset` is power-on with the blank cartridge. -/
theorem invariantAtReset : Obligations.InvariantAtReset := powerOn_inv blank_wf Params.standard

/-- The layout of a packed status byte, bit by bit (R23, R30). -/
theorem pack_bits (p : Status) (b54 : BitVec 2) :
    (p.pack b54).getLsbD 0 = p.c ∧ (p.pack b54).getLsbD 1 = p.z ∧ (p.pack b54).getLsbD 2 = p.i ∧
      (p.pack b54).getLsbD 3 = p.d ∧ (p.pack b54).getLsbD 4 = b54.getLsbD 0 ∧
      (p.pack b54).getLsbD 5 = b54.getLsbD 1 ∧ (p.pack b54).getLsbD 6 = p.v ∧ (p.pack b54).getLsbD 7 = p.n := by
  simp only [Status.pack, BitVec.getLsbD_append]
  simp

theorem unpack_pack (p : Status) (b54 : BitVec 2) : Status.unpack (p.pack b54) = p := by
  obtain ⟨hc, hz, hi, hd, -, -, hv, hn⟩ := pack_bits p b54
  rw [Status.unpack, hc, hz, hi, hd, hv, hn]

/-- Packing what a byte unpacks to gives the byte back with both pushed bits set. -/
theorem pack_unpack (v : Byte) : (Status.unpack v).pack 0b11 = v ||| 0x30 := by
  obtain ⟨hc, hz, hi, hd, h4, h5, hv, hn⟩ := pack_bits (Status.unpack v) 0b11
  refine BitVec.eq_of_getLsbD_eq fun k hk => ?_
  interval_cases k <;> simp only [hc, hz, hi, hd, h4, h5, hv, hn] <;> simp

/-- Settles O19. -/
theorem statusByteLayout : Obligations.StatusByteLayout := by
  intro p b54 v
  refine ⟨pack_bits p b54, unpack_pack p b54, ?_, ?_, pack_unpack v⟩
  · simp [Status.unpack]
  · simp [Status.unpack]

end Sys2Proof.Machine
end

section
/-! The memory family (20_memory.md), part 1: the bus read after write (R66, R69), what each write from 0x2000 on
reaches (R80, R82). -/

namespace Sys2Proof.Machine

namespace Console

/-! ## RAM, read after write -/

theorem storeCell_ram {a : Addr} (h : a.toNat < 0x2000) (c : Console) :
    c.storeCell a = some (.ram (a.toNat % 0x800)) := by
  rw [Console.storeCell, cellOf_ram h]

/-- A read cycle below 0x2000 gets the RAM byte of the low 11 bits, whatever the devices do in it. -/
theorem cycleValue_ram {a : Addr} (h : a.toNat < 0x2000) (p : Params) (c : Console) :
    c.cycleValue p a = c.byteOf (.ram (a.toNat % 0x800)) :=
  cycleValue_of_cell (cellOf_ram h c)

/-- Settles O52: the write cycle changes the one cell behind `a` (`writeCycle_byteOf`), and `b` leads to that cell
exactly when the low 11 bits agree. -/
theorem ramIsMirrored : Obligations.RamIsMirrored := by
  intro c p a b v hw ha hb
  rw [cycleValue_ram hb, cycleValue_ram hb, writeCycle_byteOf p a v c _ hw, storeCell_ram ha]
  refine ⟨fun heq => ?_, fun hne => ?_⟩
  · rw [heq, if_pos rfl]
  · rw [if_neg (by simpa using hne)]

/-! ## The regions of the writes from 0x2000 on -/

/-- No write from 0x2000 on reaches CPU RAM. -/
theorem writeByte_ram {a : Addr} (h : 0x2000 ≤ a.toNat) (v : Byte) (c : Console) : (c.writeByte a v).ram = c.ram := by
  by_cases hport : a.toNat < 0x4020
  · exact (writeByte_alike_of_port h hport v c).ram
  · rw [writeByte_of_cart (by omega)]

theorem writeByte_of_ppu {a : Addr} (h : 0x2000 ≤ a.toNat) (h' : a.toNat < 0x4000) (v : Byte) (c : Console) :
    c.writeByte a v = { c with
      ppu := c.ppu.portWrite c.cart (BitVec.ofNat 3 (a.toNat % 8)) v
      cart := c.ppu.portWriteCart c.cart (BitVec.ofNat 3 (a.toNat % 8)) v } := by
  have hport : a.setWidth 3 = BitVec.ofNat 3 (a.toNat % 8) := BitVec.eq_of_toNat_eq (by simp)
  rw [← hport, Console.writeByte, region, if_neg (by omega), if_pos h']

theorem writeByte_of_io {a : Addr} (h : 0x4000 ≤ a.toNat) (h' : a.toNat < 0x4020) (v : Byte) (c : Console) :
    c.writeByte a v = c.ioWrite (BitVec.ofNat 5 (a.toNat - 0x4000)) v := by
  have hreg : a.setWidth 5 = BitVec.ofNat 5 (a.toNat - 0x4000) :=
    BitVec.eq_of_toNat_eq (by simp only [BitVec.toNat_setWidth, BitVec.toNat_ofNat]; omega)
  rw [← hreg, Console.writeByte, region, if_neg (by omega), if_neg (by omega), if_pos h']

/-! ## The APU's and the controllers' registers (60_exceptions.md R394, R404) -/

/-- The registers below 0x4014 are the channels'. -/
theorem ioWrite_of_channel {r : BitVec 5} (h : r.toNat < 0x14) (v : Byte) (c : Console) :
    c.ioWrite r v = { c with apu := c.apu.writeRegister r v } := by
  unfold Console.ioWrite
  split
  case h_5 => rw [if_pos h]
  all_goals omega

/-- Nothing answers behind the controllers' registers. -/
theorem ioWrite_of_unused {r : BitVec 5} (h : 0x18 ≤ r.toNat) (v : Byte) (c : Console) : c.ioWrite r v = c := by
  unfold Console.ioWrite
  split
  case h_5 => rw [if_neg (by omega)]
  all_goals omega

end Console

/-! ## Cartridge space (60_exceptions.md R398 to R401) -/

theorem Cart.cpuWrite_of_low {a : Addr} (h : a.toNat < 0x6000) (v : Byte) (c : Cart) : c.cpuWrite a v = c := by
  rw [Cart.cpuWrite, if_neg (by omega), if_neg (by omega)]

theorem Cart.cpuWrite_of_prgRam {a : Addr} (h : 0x6000 ≤ a.toNat) (h' : a.toNat < 0x8000) (v : Byte) (c : Cart) :
    c.cpuWrite a v =
      if c.prgRamEnabled then { c with prgRam := c.prgRam.write (a.toNat % 0x2000) v } else c := by
  rw [Cart.cpuWrite, if_neg (by omega), if_pos h]

/-- From 0x8000 on the mapper's register answers, each mapper's its own. -/
theorem Cart.cpuWrite_of_prgWindow {a : Addr} (h : 0x8000 ≤ a.toNat) (v : Byte) (c : Cart) :
    (c.kind = .nrom → c.cpuWrite a v = c) ∧
    (c.kind = .cnrom → c.cpuWrite a v = { c with chrBank := v }) ∧
    (c.kind = .mmc1 → c.cpuWrite a v = { c with mmc1 := c.mmc1.write a v }) := by
  refine ⟨fun hk => ?_, fun hk => ?_, fun hk => ?_⟩ <;> rw [Cart.cpuWrite, if_pos h, hk]

namespace Console

/-- Nothing answers from 0x4018 to 0x5FFF, on either side of the border of cartridge space at 0x4020. -/
theorem writeByte_of_unused {a : Addr} (h : 0x4018 ≤ a.toNat) (h' : a.toNat < 0x6000) (v : Byte) (c : Console) :
    c.writeByte a v = c := by
  by_cases hio : a.toNat < 0x4020
  · rw [writeByte_of_io (by omega) hio]
    exact ioWrite_of_unused (by rw [BitVec.toNat_ofNat]; omega) v c
  · rw [writeByte_of_cart (by omega), Cart.cpuWrite_of_low h']

theorem writeByte_of_channel {a : Addr} (h : 0x4000 ≤ a.toNat) (h' : a.toNat < 0x4014) (v : Byte) (c : Console) :
    c.writeByte a v = { c with apu := c.apu.writeRegister (BitVec.ofNat 5 (a.toNat - 0x4000)) v } := by
  rw [writeByte_of_io h (by omega)]
  exact ioWrite_of_channel (by rw [BitVec.toNat_ofNat]; omega) v c

/-- Settles O60: region by region. The four single registers, 0x4014 to 0x4017, are cases of `ioWrite`. -/
theorem deviceWriteDispatch : Obligations.DeviceWriteDispatch := by
  intro c a v h
  refine ⟨writeByte_ram h v c, fun h' => ?ppu, fun h1 h2 => writeByte_of_channel h1 h2 v c, ?dma, ?control, ?strobe,
    ?frameCounter, fun h1 h2 => writeByte_of_unused h1 h2 v c, fun h1 h2 => ?prgRam, fun h1 => ?prgWindow⟩
  case ppu =>
    rw [writeByte_of_ppu h h']
    exact ⟨rfl, rfl⟩
  case dma => rintro rfl; exact writeByte_of_io (by decide) (by decide) v c
  case control => rintro rfl; exact writeByte_of_io (by decide) (by decide) v c
  case strobe => rintro rfl; exact writeByte_of_io (by decide) (by decide) v c
  case frameCounter => rintro rfl; exact writeByte_of_io (by decide) (by decide) v c
  case prgRam => rw [writeByte_of_cart (by omega), Cart.cpuWrite_of_prgRam h1 h2]
  case prgWindow =>
    rw [writeByte_of_cart (by omega)]
    obtain ⟨hnrom, hcnrom, hmmc1⟩ := Cart.cpuWrite_of_prgWindow h1 v c.cart
    exact ⟨fun hk => by rw [hnrom hk], fun hk => by rw [hcnrom hk], fun hk => by rw [hmmc1 hk]⟩

end Console

end Sys2Proof.Machine
end

section
/-! The memory family (20_memory.md), part 2: a step reaches the Console through bus cycles alone
(`step_accesses`), and no bus cycle changes PRG-ROM (R82). -/

namespace Sys2Proof.Machine

/-! ## Runs of bus cycles -/

/-- `t` is `s` after read cycles, write cycles and register updates, in any order: all that an instruction, a
sequence or a single cycle can do to the Console. -/
inductive State.Accesses : State → State → Prop
  | reads {n : Nat} {s t : State} (h : State.Reads n s t) : State.Accesses s t
  | write (a : Addr) (v : Byte) (s : State) : State.Accesses s (s.write a v)
  | trans {s t u : State} (h : State.Accesses s t) (g : State.Accesses t u) : State.Accesses s u

namespace State

/-- Register updates are part of the run. -/
theorem Accesses.of_con {s t u : State} (h : State.Accesses s t) (hc : u.con = t.con) (hp : u.params = t.params) :
    State.Accesses s u :=
  h.trans (.reads ((Reads.refl t).of_con hc hp))

theorem dummyWrite_accesses (a : Addr) (v : Byte) (s : State) : State.Accesses s (s.dummyWrite a v) := by
  unfold State.dummyWrite
  split
  · exact .write a v s
  · exact .reads (quiet_reads s)

theorem push_accesses (v : Byte) (s : State) : State.Accesses s (s.push v) :=
  (Accesses.write (stackAddr s.cpu.sp) v s).of_con rfl rfl

theorem operandWrite_accesses (m : Mem) (v : Byte) (s : State) : State.Accesses s (s.operandWrite m v) :=
  (Accesses.reads (addressCycles_reads true m s)).trans (.write _ v _)

theorem operandModify_accesses (m : Mem) (new : Byte) (s : State) : State.Accesses s (s.operandModify m new) :=
  ((Accesses.reads ((addressCycles_reads true m s).trans (read_reads _ _))).trans (dummyWrite_accesses _ _ _)).trans
    (.write _ new _)

theorem pushRows_accesses (reg : Cpu → Byte) (s : State) : State.Accesses s (s.pushRows reg) :=
  (Accesses.reads (dummyRead_reads _ s)).trans (push_accesses _ _)

theorem callPushed_accesses (s : State) : State.Accesses s (callPushed s) :=
  ((Accesses.reads (dummyRead_reads _ s)).trans (push_accesses _ _)).trans (push_accesses _ _)

theorem callSubroutine_accesses (low : Byte) (s : State) : State.Accesses s (s.callSubroutine low) :=
  ((callPushed_accesses s).trans (.reads (read_reads _ _))).of_con rfl rfl

theorem takeInterrupt_accesses (b54 : BitVec 2) (vec : Addr) (s : State) :
    State.Accesses s (s.takeInterrupt b54 vec) :=
  (((push_accesses _ s).trans (push_accesses _ _)).trans (push_accesses _ _)).trans (.reads (enterVector_reads vec _))

theorem softwareInterrupt_accesses (s : State) : State.Accesses s s.softwareInterrupt :=
  (Accesses.reads (fetch_reads s)).trans (takeInterrupt_accesses _ _ _)

/-- A hardware sequence: RESET only reads, the others take an interrupt after two dummy reads. -/
theorem runSequence_accesses (q : Seq) (s : State) : State.Accesses s (s.runSequence q) := by
  by_cases hq : q = .reset
  · subst hq
    exact .reads (runReset_reads s)
  · rw [runSequence_eq hq]
    exact (Accesses.reads (sequenceHead_reads s)).trans (takeInterrupt_accesses _ _ _)

end State

/-! ## Instructions, cycles and steps as runs of bus cycles -/

/-- An instruction that completes, by the operation of its mnemonic. -/
theorem exec_accesses {i : Instr} {s t : State} (h : exec i s = .next t) : State.Accesses s t := by
  by_cases hind : ∃ w, i = .jmpInd w
  · obtain ⟨w, rfl⟩ := hind
    cases h
    exact .reads (State.jumpIndirect_reads w s)
  have hx := (exec_eq_meaning (fun w hw => hind ⟨w, hw⟩) s).symm.trans h
  generalize hop : i.mnemonic.operation = op at hx
  cases op with
  | read f =>
    obtain ⟨m, u, -, hu, -, n, hreads⟩ := exec_read_spec hop s
    cases hu.symm.trans h
    exact .reads hreads
  | write reg =>
    obtain ⟨m, -, hm⟩ := exec_of_write hop s
    cases hm.symm.trans h
    exact State.operandWrite_accesses m _ s
  | modify new flags =>
    obtain ⟨m, -, hm⟩ | ⟨-, -, hm⟩ := exec_of_modify hop s
    · cases hm.symm.trans h
      exact (State.operandModify_accesses m _ s).of_con rfl rfl
    · cases hm.symm.trans h
      exact (State.Accesses.reads (State.dummyRead_reads _ s)).of_con rfl rfl
  | implied f =>
    cases hx
    exact (State.Accesses.reads (State.dummyRead_reads _ s)).of_con rfl rfl
  | branch cond =>
    obtain ⟨u, hu, -, hreads⟩ := branchClass_spec cond (BitVec.ofNat 8 i.operand) s
    cases hu.symm.trans hx
    exact .reads hreads
  | push reg => cases hx; exact State.pushRows_accesses reg s
  | pull f => cases hx; exact .reads (State.pullRows_reads f s)
  | jump => cases hx; exact .reads ((State.Reads.refl s).of_con rfl rfl)
  | call => cases hx; exact State.callSubroutine_accesses _ s
  | subroutineReturn => cases hx; exact .reads (State.returnFromSubroutine_reads s)
  | softwareInterrupt => cases hx; exact State.softwareInterrupt_accesses s
  | interruptReturn => cases hx; exact .reads (State.interruptReturn_reads s)

theorem Row.perform_accesses (r : Row) (s : State) : State.Accesses s (r.perform s) := by
  cases r with
  | read a f => exact (State.Accesses.reads (State.read_reads a s)).of_con rfl rfl
  | write a v f => exact (State.Accesses.write a v s).of_con rfl rfl
  | dummyRead a f => exact (State.Accesses.reads (State.dummyRead_reads a s)).of_con rfl rfl
  | dummyWrite a v f => exact (State.dummyWrite_accesses a v s).of_con rfl rfl

theorem afterCheck_accesses (s : State) : State.Accesses s s.afterCheck :=
  .reads ((State.Reads.refl s).of_con rfl rfl)

/-- One cycle: a row, or row 1 of a sequence or of an instruction. -/
theorem cycle_accesses {s t : State} (h : cycle s = .next t) : State.Accesses s t := by
  cases hf : s.cpu.fault with
  | some b => cases (cycle_of_fault hf).symm.trans h
  | none =>
    cases hc : s.cpu.control with
    | busy k =>
      cases hr : k.row s.params s.cpu with
      | none => cases (cycle_of_noRow hf hc hr).symm.trans h
      | some r =>
        cases (cycle_of_busy hf hc hr).symm.trans h
        exact r.perform_accesses s
    | idle =>
      refine (afterCheck_accesses s).trans ?_
      cases hq : s.cpu.selected with
      | some q =>
        cases (cycle_of_selected hf hc hq).symm.trans h
        exact (State.Accesses.reads (State.dummyRead_reads _ _)).of_con rfl rfl
      | none =>
        rw [cycle_of_running ⟨hf, hc, hq⟩] at h
        obtain ⟨b, u, hs⟩ | ⟨b, e, -, hs⟩ := startInstruction_cases s.afterCheck
        · cases hs.symm.trans h
        · cases hs.symm.trans h
          exact (State.Accesses.reads (State.fetch_reads _)).of_con rfl rfl

/-- A run to idle, cycle by cycle. -/
theorem runToIdle_accesses : ∀ (n : Nat) {s t : State}, runToIdle n s = .next t → State.Accesses s t
  | 0, _, _, h => by cases h
  | n + 1, s, t, h => by
    cases hc : cycle s with
    | next u =>
      have hu := cycle_accesses hc
      rw [runToIdle_next hc] at h
      cases hu' : u.cpu.control with
      | idle => simp only [hu'] at h; cases h; exact hu
      | busy k => simp only [hu'] at h; exact hu.trans (runToIdle_accesses n h)
    | fault f => simp [runToIdle, hc] at h
    | refused r => simp [runToIdle, hc] at h

/-- A step, from any state: the rest of a sequence, a whole hardware sequence, or an instruction. -/
theorem step_accesses {s t : State} (h : step s = .next t) : State.Accesses s t := by
  cases hf : s.cpu.fault with
  | some b => cases (step_of_fault hf).symm.trans h
  | none =>
    cases hc : s.cpu.control with
    | busy k => exact runToIdle_accesses 7 ((step_of_busy hf hc).symm.trans h)
    | idle =>
      refine (afterCheck_accesses s).trans ?_
      cases hq : s.cpu.selected with
      | some q =>
        cases (step_of_selected hf hc hq).symm.trans h
        exact State.runSequence_accesses q _
      | none =>
        rw [step_of_running ⟨hf, hc, hq⟩] at h
        obtain ⟨b, hfetch⟩ | ⟨i, hfetch⟩ := fetchInstr_cases s.afterCheck
        · rw [hfetch] at h
          cases h
        · rw [hfetch] at h
          exact (State.Accesses.reads (State.afterFetch_reads _ _)).trans (exec_accesses h)

/-! ## PRG-ROM (20_memory.md R82) -/

/-- No write changes PRG-ROM: RAM and ports lie elsewhere, and in cartridge space the mapper keeps it. -/
theorem Console.writeByte_prgRom (a : Addr) (v : Byte) (c : Console) :
    (c.writeByte a v).cart.prgRom = c.cart.prgRom := by
  by_cases hram : a.toNat < 0x2000
  · rw [writeByte_of_ram hram]
  · by_cases hport : a.toNat < 0x4020
    · exact (writeByte_alike_of_port (by omega) hport v c).prgRom
    · rw [writeByte_of_cart (by omega)]
      exact cpuWrite_rom a v c.cart

theorem Console.writeCycle_prgRom (p : Params) (a : Addr) (v : Byte) (c : Console) :
    (c.writeCycle p a v).cart.prgRom = c.cart.prgRom := by
  rw [Console.writeCycle, (endCycle_alike p _).prgRom, writeByte_prgRom, (beginCycle_alike p c).prgRom]

theorem State.Accesses.prgRom {s t : State} (h : State.Accesses s t) : t.con.cart.prgRom = s.con.cart.prgRom := by
  induction h with
  | reads h => exact h.alike.prgRom
  | write a v s => exact Console.writeCycle_prgRom s.params a v s.con
  | trans _ _ ihs iht => exact iht.trans ihs

/-- Settles O51: a step is a run of bus cycles, and none of them changes PRG-ROM. -/
theorem romBytesNeverChange : Obligations.RomBytesNeverChange := by
  intro s t k h
  rw [Console.byteOf, Console.byteOf, (step_accesses h).prgRom]

end Sys2Proof.Machine
end

section
/-! The encoding family (30_encoding.md), part 1: the decoder by the forms of the opcode table, the table against the
encoder, and the decoder against the encoder. -/

namespace Sys2Proof

open Sys2Proof.Machine

/-! ## The decoder by the forms of the table (R90) -/

/-- A form makes an instruction of its operand bytes, low byte first. -/
inductive Form.Makes : Form → List Byte → Instr → Prop
  | one (i : Instr) : Makes (.one i) [] i
  | two (f : Byte → Instr) (d : Byte) : Makes (.two f) [d] (f d)
  | three (f : Addr → Instr) (w : Addr) : Makes (.three f) [lo w, hi w] (f w)
  | call (f : Addr → Instr) (w : Addr) : Makes (.call f) [lo w, hi w] (f w)

theorem decode_of_makes {b : Byte} {f : Form} {ops : List Byte} {i : Instr} (hf : opcodeForm b = some f)
    (hm : f.Makes ops i) (rest : List Byte) : decode (b :: (ops ++ rest)) = .ok (i, rest) := by
  cases hm <;> simp [decode, hf]

/-- The form of the first byte makes the instruction of operand bytes from the front of the others. -/
theorem makes_of_decode {b : Byte} {bs rest : List Byte} {i : Instr} (h : decode (b :: bs) = .ok (i, rest)) :
    ∃ f ops, opcodeForm b = some f ∧ f.Makes ops i ∧ bs = ops ++ rest := by
  cases hf : opcodeForm b with
  | none => simp [decode, hf] at h
  | some f =>
    refine ⟨f, ?_⟩
    cases f with
    | one _ =>
      simp only [decode, hf] at h
      cases h
      exact ⟨[], rfl, .one _, rfl⟩
    | two g =>
      match bs with
      | [] => simp [decode, hf] at h
      | d :: _ =>
        simp only [decode, hf] at h
        cases h
        exact ⟨[d], rfl, .two g d, rfl⟩
    | three g | call g =>
      match bs with
      | [] | [_] => simp [decode, hf] at h
      | l :: m :: _ =>
        simp only [decode, hf] at h
        cases h
        exact ⟨[lo (word m l), hi (word m l)], rfl, by constructor, by simp⟩

theorem decode_eq_illegalOpcode_iff {b : Byte} {rest : List Byte} :
    decode (b :: rest) = .error (.illegalOpcode b) ↔ opcodeForm b = none := by
  refine ⟨fun h => ?_, fun hf => by simp [decode, hf]⟩
  cases hf : opcodeForm b with
  | none => rfl
  | some f =>
    -- a legal byte gives an instruction or is followed by too few bytes
    cases f <;> simp only [decode, hf] at h
    case one => cases h
    all_goals split at h <;> cases h

/-! ## The table against the encoder (R98) -/

/-- What a form makes has the form's table entry: its opcode byte and the operand bytes it was made of. -/
theorem entryOf_makes {b : Byte} {f : Form} {ops : List Byte} {i : Instr} (hf : opcodeForm b = some f)
    (hm : f.Makes ops i) : EntryOf b i ops := by
  cases hm with
  | one => exact (opcodeForm_one hf).1
  | two _ d => exact (opcodeForm_two hf d).1
  | three _ w => exact (opcodeForm_three hf w).1
  | call _ w => exact ((opcodeForm_says hf).2 w).1

/-- Every instruction has a form at its opcode byte, which makes it of its own operand bytes. -/
theorem exists_form_makes (i : Instr) : ∃ f, opcodeForm i.opcode = some f ∧ f.Makes i.operandBytes i := by
  -- the opcode byte first, so that the table is evaluated at a literal
  cases i <;> dsimp only [Instr.opcode] <;> exact ⟨_, rfl, by constructor⟩

/-- The number of operand bytes is the one the mode fixes. -/
theorem operandBytes_length (i : Instr) : i.operandBytes.length = i.mode.operandBytes := by
  obtain ⟨f, hf, hm⟩ := exists_form_makes i
  have hlen := (entryOf_makes hf hm).length
  rw [Mode.length] at hlen
  omega

theorem encode_length (i : Instr) : (encode i).length = i.mode.length := by
  rw [encode, List.length_cons, operandBytes_length, Mode.length, Nat.add_comm]

/-! ## Well-formed instructions (R96, R102) -/

theorem written_modeOk (i : Instr) : i.written.modeOk = true := by
  cases i <;> rfl

/-- An operand of 0, 1 or 2 bytes fits them. -/
theorem operand_lt (i : Instr) : i.operand < 2 ^ (8 * i.operandBytes.length) := by
  unfold Instr.operand
  split
  case h_1 => simp
  case h_2 d heq => rw [heq]; exact d.isLt
  case h_3 l h tail heq =>
    rw [heq]
    calc (word h l).toNat < 2 ^ 16 := (word h l).isLt
      _ ≤ 2 ^ (8 * (l :: h :: tail).length) := Nat.pow_le_pow_right (by decide) (by simp; omega)

theorem instr_wellFormed (i : Instr) : i.wellFormed = true := by
  rw [Instr.wellFormed, Written.wellFormed, written_modeOk, Written.operandOk, Bool.true_and, decide_eq_true_iff]
  exact operandBytes_length i ▸ operand_lt i

/-- Settles O6: the form at the instruction's opcode byte makes it of its operand bytes. -/
theorem decodeOfEncode : Obligations.DecodeOfEncode := by
  intro i rest
  obtain ⟨f, hf, hm⟩ := exists_form_makes i
  exact ⟨instr_wellFormed i, decode_of_makes hf hm rest⟩

/-- Settles O7: the form that made the instruction has its opcode byte and operand bytes. -/
theorem encodeOfDecode : Obligations.EncodeOfDecode := by
  intro bs rest i h
  refine ⟨?_, encode_length i⟩
  cases bs with
  | nil => cases h
  | cons b bs =>
    obtain ⟨f, ops, hf, hm, rfl⟩ := makes_of_decode h
    obtain ⟨rfl, rfl, -, -⟩ := entryOf_makes hf hm
    rfl

/-- Settles O8: the listed bytes are those without a form, byte by byte. -/
theorem illegalOpcodeBytes : Obligations.IllegalOpcodeBytes := by
  intro b rest
  rw [decode_eq_illegalOpcode_iff]
  revert b
  decide

/-- Settles O9: the decoder runs on each word. -/
theorem decodedWords : Obligations.DecodedWords := by
  refine ⟨?_, ?_, ?_, ?_, ?_, ?_, ?_, ?_, ?_, ?_, ?_, ?_⟩ <;> rfl

end Sys2Proof
end

section
/-! The encoding family (30_encoding.md), part 2: a step runs the instruction that the fetches give (R92, R93). -/

namespace Sys2Proof.Machine

/-- Settles O11: `fetchInstr` form by form; what it shows of JSR's third byte does not matter (`exec_jsr_word`). -/
theorem stepRunsTheFetchedInstruction : Obligations.StepRunsTheFetchedInstruction := by
  intro s hrun
  rw [step_of_running hrun]
  refine ⟨fun i hf => ?_, fun f hf => ?_, fun f hf => ?_, fun f h hf => ?_⟩
  · rw [fetchInstr_one hf, Fetched.run]
  · rw [fetchInstr_two hf, Fetched.run]
  · rw [fetchInstr_three hf, Fetched.run]
  · rw [fetchInstr_call hf, Fetched.run]
    obtain rfl := opcodeForm_call hf
    exact exec_jsr_word _ _ _ _

/-- The bus gives a form the operand bytes it makes the instruction of, so that instruction runs. -/
theorem step_of_makes {s : State} (hrun : s.running) {f : Form} {ops rest : List Byte} {i : Instr}
    (hf : opcodeForm (s.afterCheck.fetchedByte 0) = some f) (hm : f.Makes ops i)
    (hops : [s.afterCheck.fetchedByte 1, s.afterCheck.fetchedByte 2] = ops ++ rest) :
    step s = exec i (s.afterCheck.afterFetch i.fetchedBytes) := by
  obtain ⟨hone, htwo, hthree, hcall⟩ := stepRunsTheFetchedInstruction s hrun
  cases hm with
  | one => rw [hone _ hf, (opcodeForm_one hf).2]
  | two g d =>
    obtain ⟨rfl, -⟩ := List.cons.inj hops
    rw [htwo g hf, (opcodeForm_two hf _).2]
  | three g w =>
    obtain ⟨hlo, hhi, -⟩ : _ = lo w ∧ _ = hi w ∧ _ := by simpa using hops
    rw [hthree g hf, hlo, hhi, word_hi_lo, (opcodeForm_three hf w).2]
  | call g w =>
    obtain ⟨hlo, -⟩ := List.cons.inj hops
    rw [hcall g (hi w) hf, hlo, word_hi_lo, ((opcodeForm_says hf).2 w).2]

/-- Settles O10: a fetch gets the byte stored there (`fetchedByte_of_peek`), and fetches are read cycles that move
PC on. -/
theorem stepRunsTheDecodedInstruction : Obligations.StepRunsTheDecodedInstruction := by
  intro s b0 b1 b2 i rest hrun h0 h1 h2 hdec
  have hpc : s.afterCheck.cpu.pc = s.cpu.pc := by simp
  have hb0 : s.afterCheck.fetchedByte 0 = b0 := State.fetchedByte_of_peek (by simpa using h0)
  have hb1 : s.afterCheck.fetchedByte 1 = b1 := State.fetchedByte_of_peek (hpc ▸ h1)
  have hb2 : s.afterCheck.fetchedByte 2 = b2 := State.fetchedByte_of_peek (hpc ▸ h2)
  obtain ⟨f, ops, hf, hm, hops⟩ := makes_of_decode hdec
  have hreads := State.afterFetch_reads i.fetchedBytes s.afterCheck
  refine ⟨step_of_makes hrun (hb0 ▸ hf) hm (hb1 ▸ hb2 ▸ hops), ?_, hreads.memoryKept, hreads.clock⟩
  rw [State.afterFetch_cpu, hpc]

end Sys2Proof.Machine
end

section
/-! The addressing family (40_addressing_and_cycles.md), part 1: effective addresses and the page-cross test
(R130, R134, R138). -/

namespace Sys2Proof.Machine

/-! ## Effective addresses (R138) -/

/-- Without an index the base is the effective address. -/
theorem ea_eq_base {m : Mem} {s : State} (h : s.index m = 0) : s.ea m = s.base m := by
  rw [State.ea, h]
  exact BitVec.add_zero _

/-- Settles O16: the modes without an index by `ea_eq_base`, the pointers by their two stored bytes
(`zeroPageWord_of_peek`), the operand by `operand_of_peek`. -/
theorem effectiveAddressAndOperand : Obligations.EffectiveAddressAndOperand := by
  intro s d w
  refine ⟨ea_eq_base rfl, ea_eq_base rfl, ea_eq_base rfl, ea_eq_base rfl, rfl, rfl, fun l h hl hh => ?_,
    fun l h hl hh => ?_, fun m v => State.operand_of_peek⟩
  · exact (ea_eq_base rfl).trans (State.zeroPageWord_of_peek hl hh)
  · exact congrArg (· + zext16 s.cpu.y) (State.zeroPageWord_of_peek hl hh)

/-! ## The page-cross test (R130, R134) -/

theorem lo_add_zext16 (w : Addr) (b : Byte) : lo (w + zext16 b) = lo w + b := by
  refine BitVec.eq_of_toNat_eq ?_
  rw [lo_toNat, add_zext16_toNat, BitVec.toNat_add, lo_toNat]
  omega

/-- The carry out of the low byte goes into the high byte (R134, "`carry`" of R130). -/
theorem hi_add_zext16 (w : Addr) (b : Byte) :
    hi (w + zext16 b) = hi w + bit (decide (0xFF < (lo w).toNat + b.toNat)) := by
  have hw := w.isLt
  have hb := b.isLt
  refine BitVec.eq_of_toNat_eq ?_
  rw [hi_toNat, add_zext16_toNat, BitVec.toNat_add, hi_toNat, lo_toNat]
  by_cases hc : 0xFF < w.toNat % 256 + b.toNat <;> simp [bit, hc] <;> omega

/-- The page-cross test by the carry. -/
theorem crosses_eq_carry (s : State) (m : Mem) :
    s.crosses m = decide (0xFF < (lo (s.base m)).toNat + (s.index m).toNat) := by
  rw [State.crosses, State.ea, hi_add_zext16]
  cases decide (0xFF < (lo (s.base m)).toNat + (s.index m).toNat) <;> simp [bit]

/-- The page of the effective address is the base's, or the next one when the page is crossed. -/
theorem hi_ea (s : State) (m : Mem) : hi (s.ea m) = hi (s.base m) + bit (s.crosses m) := by
  rw [crosses_eq_carry, State.ea, hi_add_zext16]

theorem lo_ea (s : State) (m : Mem) : lo (s.ea m) = lo (s.base m) + s.index m := lo_add_zext16 _ _

/-- One page below. -/
theorem word_hi_sub_one (w : Addr) : word (hi w - 1) (lo w) = w - 0x100 := by
  have hw := w.isLt
  have hbyte : BitVec.toNat (1 : Byte) = 1 := rfl
  have hpage : BitVec.toNat (0x100 : Addr) = 256 := rfl
  refine BitVec.eq_of_toNat_eq ?_
  rw [word_toNat, lo_toNat, BitVec.toNat_sub, BitVec.toNat_sub, hi_toNat]
  omega

/-- Settles O17: the carry out of the low byte is the crossing (`crosses_eq_carry`), and goes into the high byte
(`hi_ea`). -/
theorem pageCrossTest : Obligations.PageCrossTest := by
  intro s m
  have hhi := hi_ea s m
  refine ⟨by simp [crosses_eq_carry], fun hc => ?_, fun hc => ?_, fun hc => ?_⟩
  · simpa [bit, hc] using hhi
  · -- the page is the base's, so nothing is left to correct
    have hpage : hi (s.base m) = hi (s.ea m) := by simp [hhi, bit, hc]
    rw [State.uncorrected, hpage, word_hi_lo]
  · have hpage : hi (s.base m) = hi (s.ea m) - 1 := by simp [hhi, bit, hc]
    rw [State.uncorrected, hpage, word_hi_sub_one]

end Sys2Proof.Machine
end

section
/-! The addressing family (40_addressing_and_cycles.md), part 2: how many cycles each access class takes, and which
only read (R124, R150, R151). -/

namespace Sys2Proof.Machine

/-! ## The addressing mode of an operand -/

/-- The addressing mode of a memory operand (30_encoding.md R96). -/
def Mem.mode : Mem → Mode
  | .zp _ => .zp
  | .zpx _ => .zpx
  | .zpy _ => .zpy
  | .abs _ => .abs
  | .abx _ => .abx
  | .aby _ => .aby
  | .izx _ => .izx
  | .izy _ => .izy

theorem mode_of_mem {i : Instr} {m : Mem} (h : i.mem = some m) : i.mode = m.mode := by
  cases i <;> cases h <;> rfl

theorem mode_of_immediate {i : Instr} {d : Byte} (h : i.immediate = some d) : i.mode = .imm := by
  cases i <;> cases h <;> rfl

theorem mem_of_immediate {i : Instr} {d : Byte} (h : i.immediate = some d) : i.mem = none := by
  cases i <;> cases h <;> rfl

/-- Every byte of an instruction is fetched before its meaning runs, but the third of JSR (R141). -/
theorem fetchedBytes_of_not_call {i : Instr} (h : i.mnemonic.operation ≠ .call) : i.fetchedBytes = i.mode.length := by
  cases i with
  | jsr w => exact absurd rfl h
  | _ => rfl

/-! ## The cycles of the table, class by class (R150, R151)

`n` cycles after the fetch of the instruction's bytes make up the table's count. -/

/-- `n` cycles and those of the fetches are the count of the table. -/
def TableCycles (i : Instr) (s : State) (n : Nat) : Prop := n + i.fetchedBytes = i.baseCycles + i.extraCycles s

theorem tableCycles_immediate {i : Instr} {f : Byte → Cpu → Cpu} {d : Byte} (hop : i.mnemonic.operation = .read f)
    (himm : i.immediate = some d) (s : State) : TableCycles i s 0 := by
  rw [TableCycles, fetchedBytes_of_not_call (by simp [hop]), Instr.baseCycles, Instr.extraCycles, hop,
    mode_of_immediate himm, mem_of_immediate himm]
  rfl

/-- Only the modes with an index can cross a page, so a read pays for no other (R151). -/
theorem tableCycles_read {i : Instr} {f : Byte → Cpu → Cpu} {m : Mem} (hop : i.mnemonic.operation = .read f)
    (hm : i.mem = some m) (s : State) : TableCycles i s (State.addressCount false m s + 1) := by
  have hextra : i.extraCycles s = if s.crosses m then 1 else 0 := by simp [Instr.extraCycles, hop, hm]
  have hsame : s.index m = 0 → s.crosses m = false := fun h => by simp [State.crosses, ea_eq_base h]
  rw [TableCycles, fetchedBytes_of_not_call (by simp [hop]), Instr.baseCycles, hop, mode_of_mem hm, hextra]
  cases m with
  | abx | aby | izy => simp only [State.addressCount, Bool.false_or]; split <;> rfl
  | _ => rw [hsame rfl]; rfl

/-- A store always takes the longer count (R151). -/
theorem tableCycles_write {i : Instr} {reg : Cpu → Byte} {m : Mem} (hop : i.mnemonic.operation = .write reg)
    (hm : i.mem = some m) (s : State) : TableCycles i s (State.addressCount true m s + 1) := by
  have hextra : i.extraCycles s = 0 := by simp [Instr.extraCycles, hop]
  rw [TableCycles, fetchedBytes_of_not_call (by simp [hop]), Instr.baseCycles, hop, mode_of_mem hm, hextra]
  cases m <;> rfl

/-- The modes of the modify class (30_encoding.md R98). -/
theorem mode_of_modify {i : Instr} {new : Byte → Status → Byte} {flags : Byte → Status → Status}
    (hop : i.mnemonic.operation = .modify new flags) : i.mode ∈ ([.acc, .zp, .zpx, .abs, .abx] : List Mode) := by
  cases i <;> cases hop <;> simp [Instr.mode]

theorem tableCycles_modify {i : Instr} {new : Byte → Status → Byte} {flags : Byte → Status → Status} {m : Mem}
    (hop : i.mnemonic.operation = .modify new flags) (hm : i.mem = some m) (s : State) :
    TableCycles i s (State.addressCount true m s + 3) := by
  have hextra : i.extraCycles s = 0 := by simp [Instr.extraCycles, hop]
  have hmode := mode_of_modify hop
  rw [mode_of_mem hm] at hmode
  rw [TableCycles, fetchedBytes_of_not_call (by simp [hop]), Instr.baseCycles, hop, mode_of_mem hm, hextra]
  cases m with
  | zp | zpx | abs | abx => rfl
  | zpy | aby | izx | izy => simp [Mem.mode] at hmode

theorem tableCycles_accumulator {i : Instr} {new : Byte → Status → Byte} {flags : Byte → Status → Status}
    (hop : i.mnemonic.operation = .modify new flags) (hacc : i.mode = .acc) (s : State) : TableCycles i s 1 := by
  have hextra : i.extraCycles s = 0 := by simp [Instr.extraCycles, hop]
  rw [TableCycles, fetchedBytes_of_not_call (by simp [hop]), Instr.baseCycles, hop, hacc, hextra]
  rfl

/-- The cycles after the opcode fetch of an instruction without operand bytes (R125, R140, R142 to R145). -/
def Operation.implicitCycles : Operation → Option Nat
  | .implied _ => some 1
  | .push _ => some 2
  | .pull _ => some 3
  | .subroutineReturn => some 5
  | .interruptReturn => some 5
  | .softwareInterrupt => some 6
  | _ => none

theorem tableCycles_implicit {i : Instr} {n : Nat} (h : i.mnemonic.operation.implicitCycles = some n) (s : State) :
    TableCycles i s n := by
  cases i <;> cases h <;> rfl

theorem mode_of_branch {i : Instr} {cond : Status → Bool} (hop : i.mnemonic.operation = .branch cond) :
    i.mode = .rel := by
  cases i <;> cases hop <;> rfl

/-- A branch pays for being taken and, taken, for leaving its page (R135). -/
theorem tableCycles_branch {i : Instr} {cond : Status → Bool} (hop : i.mnemonic.operation = .branch cond)
    (s : State) : TableCycles i s (if cond s.cpu.p then
      (if branchCrosses s.cpu.pc (BitVec.ofNat 8 i.operand) then 2 else 1) else 0) := by
  have hmode := mode_of_branch hop
  rw [TableCycles, fetchedBytes_of_not_call (by simp [hop]), Instr.baseCycles, Instr.extraCycles, hop, hmode]
  exact Nat.add_comm _ _

theorem eq_jmp_of_jump {i : Instr} (hop : i.mnemonic.operation = .jump) :
    (∃ w, i = .jmpAbs w) ∨ ∃ w, i = .jmpInd w := by
  cases i <;> cases hop <;> simp

theorem eq_jsr_of_call {i : Instr} (hop : i.mnemonic.operation = .call) : ∃ w, i = .jsr w := by
  cases i <;> cases hop
  exact ⟨_, rfl⟩

theorem exec_eq_meaning_of_operation {i : Instr} {op : Operation} (hop : i.mnemonic.operation = op)
    (hjump : op ≠ .jump) (s : State) : exec i s = op.meaning i.immediate i.mem i.operand s := by
  subst hop
  exact exec_eq_meaning (by rintro w rfl; exact hjump rfl) s

/-! ## The instructions that only read, and those that store (R124; 20_memory.md R70) -/

/-- The operation writes memory: the write class, the modify class but for the accumulator, the pushes. -/
def Operation.stores (mode : Mode) : Operation → Bool
  | .write _ => true
  | .modify _ _ => mode != .acc
  | .push _ => true
  | .call => true
  | .softwareInterrupt => true
  | _ => false

/-- An instruction that stores nothing is a run of reads, as long as the table says. -/
theorem exec_reads {i : Instr} (h : i.mnemonic.operation.stores i.mode = false) (s : State) :
    ∃ n t, exec i s = .next t ∧ TableCycles i s n ∧ State.Reads n s t := by
  cases hop : i.mnemonic.operation with
  | read f =>
    obtain ⟨d, himm, hx⟩ | ⟨m, -, hm, hx⟩ := exec_of_read hop s
    · exact ⟨0, _, hx, tableCycles_immediate hop himm s, (State.Reads.refl s).of_con rfl rfl⟩
    · obtain ⟨t, ht, -, hreads⟩ := readClass_spec f m s
      exact ⟨_, t, hx.trans ht, tableCycles_read hop hm s, hreads⟩
  | modify new flags =>
    have hacc : i.mode = .acc := by simpa [hop, Operation.stores] using h
    obtain ⟨m, hm, -⟩ | ⟨-, -, hx⟩ := exec_of_modify hop s
    · cases m <;> cases (mode_of_mem hm).symm.trans hacc
    · obtain ⟨t, ht, -, hreads⟩ := accumulatorClass_spec new flags s
      exact ⟨1, t, hx.trans ht, tableCycles_accumulator hop hacc s, hreads⟩
  | implied f =>
    obtain ⟨t, ht, -, hreads⟩ := impliedClass_spec f s
    exact ⟨1, t, (exec_of_implied hop s).trans ht, tableCycles_implicit (by rw [hop]; rfl) s, hreads⟩
  | branch cond =>
    obtain ⟨t, ht, -, hreads⟩ := branchClass_spec cond (BitVec.ofNat 8 i.operand) s
    exact ⟨_, t, (exec_of_branch hop s).trans ht, tableCycles_branch hop s, hreads⟩
  | jump =>
    obtain ⟨w, rfl⟩ | ⟨w, rfl⟩ := eq_jmp_of_jump hop
    · exact ⟨0, _, rfl, rfl, (State.Reads.refl s).of_con rfl rfl⟩
    · exact ⟨2, _, rfl, rfl, State.jumpIndirect_reads w s⟩
  | pull f =>
    exact ⟨3, _, exec_eq_meaning_of_operation hop (by simp) s, tableCycles_implicit (by rw [hop]; rfl) s,
      State.pullRows_reads f s⟩
  | subroutineReturn =>
    exact ⟨5, _, exec_eq_meaning_of_operation hop (by simp) s, tableCycles_implicit (by rw [hop]; rfl) s,
      State.returnFromSubroutine_reads s⟩
  | interruptReturn =>
    exact ⟨5, _, exec_eq_meaning_of_operation hop (by simp) s, tableCycles_implicit (by rw [hop]; rfl) s,
      State.interruptReturn_reads s⟩
  | write | push | call | softwareInterrupt => rw [hop] at h; cases h

/-- An instruction that stores is as long as the table says too. -/
theorem exec_stores_clock {i : Instr} (h : i.mnemonic.operation.stores i.mode = true) (s : State) :
    ∃ n t, exec i s = .next t ∧ TableCycles i s n ∧ t.con.clock = s.con.clock + n := by
  cases hop : i.mnemonic.operation with
  | write reg =>
    obtain ⟨m, hm, hx⟩ := exec_of_write hop s
    exact ⟨_, _, hx, tableCycles_write hop hm s, State.operandWrite_clock m _ s⟩
  | modify new flags =>
    obtain ⟨m, hm, hx⟩ | ⟨-, hacc, -⟩ := exec_of_modify hop s
    · exact ⟨_, _, hx, tableCycles_modify hop hm s, State.operandModify_clock m _ s⟩
    · rw [hop, hacc] at h
      cases h
  | push reg =>
    exact ⟨2, _, exec_eq_meaning_of_operation hop (by simp) s, tableCycles_implicit (by rw [hop]; rfl) s,
      State.pushRows_clock reg s⟩
  | call =>
    obtain ⟨w, rfl⟩ := eq_jsr_of_call hop
    exact ⟨4, _, rfl, rfl, State.callSubroutine_clock _ s⟩
  | softwareInterrupt =>
    refine ⟨6, _, exec_eq_meaning_of_operation hop (by simp) s, tableCycles_implicit (by rw [hop]; rfl) s, ?_⟩
    rw [State.softwareInterrupt, State.takeInterrupt_clock, (State.fetch_reads s).clock]
  | read | implied | branch | jump | pull | subroutineReturn | interruptReturn => rw [hop] at h; cases h

/-- Settles O18: both kinds of instruction complete after the cycles of the table. -/
theorem cycleCounts : Obligations.CycleCounts := by
  intro i s
  have hclock : ∃ n t, exec i s = .next t ∧ TableCycles i s n ∧ t.con.clock = s.con.clock + n := by
    cases h : i.mnemonic.operation.stores i.mode with
    | true => exact exec_stores_clock h s
    | false =>
      obtain ⟨n, t, ht, hn, hreads⟩ := exec_reads h s
      exact ⟨n, t, ht, hn, hreads.clock⟩
  obtain ⟨n, t, ht, hn, hclock⟩ := hclock
  refine ⟨t, ht, ?_⟩
  rw [TableCycles] at hn
  omega

/-- Only the named mnemonics have a storing operation. -/
theorem stores_eq_false {i : Instr}
    (hn : i.mnemonic ∉ ([.sta, .stx, .sty, .inc, .dec, .pha, .php, .jsr, .brk] : List Mnemonic))
    (hshift : i.mnemonic ∈ ([.asl, .lsr, .rol, .ror] : List Mnemonic) → i.mode = .acc) :
    i.mnemonic.operation.stores i.mode = false := by
  cases hmn : i.mnemonic <;> simp [hmn] at hn hshift
  case asl | lsr | rol | ror => rw [hshift]; rfl
  all_goals rfl

/-- Settles O50: what stores nothing is a run of reads, and those keep memory. -/
theorem onlyStoringInstructionsChangeMemory : Obligations.OnlyStoringInstructionsChangeMemory := by
  intro i s t h hn hshift
  obtain ⟨n, u, hu, -, hreads⟩ := exec_reads (stores_eq_false hn hshift) s
  cases hu.symm.trans h
  exact hreads.memoryKept

end Sys2Proof.Machine
end

section
/-! The addressing family (40_addressing_and_cycles.md), part 3: the rows of a sequence do not look at the request flags
(R153). -/

namespace Sys2Proof.Machine

/-! ## The requests of the core -/

/-- The three request flags (10_state.md R36). -/
structure Requests where
  reset : Bool
  nmi : Bool
  irq : Bool

/-- The requests pending in the core. -/
def Cpu.requests (c : Cpu) : Requests := ⟨c.resetReq, c.nmiReq, c.irqReq⟩

/-- The core with the requests `q` pending, and no others. -/
def Cpu.withRequests (q : Requests) (c : Cpu) : Cpu :=
  { c with resetReq := q.reset, nmiReq := q.nmi, irqReq := q.irq }

/-! ## Operations that commute with a change of the core -/

/-- What the operation does to the core does not depend on what `g` changes, and leaves it alone. -/
inductive Operation.Commutes (g : Cpu → Cpu) : Operation → Prop
  | read {f : Byte → Cpu → Cpu} (h : ∀ v c, f v (g c) = g (f v c)) : Commutes g (.read f)
  | write {reg : Cpu → Byte} (h : ∀ c, reg (g c) = reg c) : Commutes g (.write reg)
  | modify {new : Byte → Status → Byte} {flags : Byte → Status → Status} : Commutes g (.modify new flags)
  | implied {f : Cpu → Cpu} (h : ∀ c, f (g c) = g (f c)) : Commutes g (.implied f)
  | branch {cond : Status → Bool} : Commutes g (.branch cond)
  | push {reg : Cpu → Byte} (h : ∀ c, reg (g c) = reg c) : Commutes g (.push reg)
  | pull {f : Byte → Cpu → Cpu} (h : ∀ v c, f v (g c) = g (f v c)) : Commutes g (.pull f)
  | jump : Commutes g .jump
  | call : Commutes g .call
  | subroutineReturn : Commutes g .subroutineReturn
  | softwareInterrupt : Commutes g .softwareInterrupt
  | interruptReturn : Commutes g .interruptReturn

theorem operation_commutes_withRequests (q : Requests) (n : Mnemonic) :
    n.operation.Commutes (Cpu.withRequests q) := by
  cases n <;> constructor <;> intros <;> rfl

/-! ## Tables whose rows do not look at the requests -/

/-- The rows `o` of a core and `o'` of the same core with the requests `q` are one row, whose update keeps them. -/
structure SameRow (q : Requests) (o o' : Option Row) : Prop where
  row : o' = o
  update : ∀ r, o = some r → ∀ v c, r.update v (c.withRequests q) = (r.update v c).withRequests q

theorem SameRow.none (q : Requests) : SameRow q none none := ⟨rfl, by simp⟩

theorem SameRow.some {q : Requests} {r : Row}
    (h : ∀ v c, r.update v (c.withRequests q) = (r.update v c).withRequests q) : SameRow q (some r) (some r) :=
  ⟨rfl, by rintro _ ⟨⟩; exact h⟩

/-- No row of the table looks at the requests. -/
def RowTable.IgnoresRequests (table : RowTable) : Prop := ∀ q k c, SameRow q (table k c) (table k (c.withRequests q))

section
variable {op : Operation} (hop : ∀ q, op.Commutes (Cpu.withRequests q))
include hop

theorem tailRow_ignoresRequests (j : Nat) : RowTable.IgnoresRequests (tailRow op j) := by
  intro q k c
  have hq := hop q
  unfold tailRow
  split
  case h_1 => cases hq with | read h => exact .some fun v d => congrArg Cpu.retire (h v d)
  case h_2 => cases hq with | write h => rw [h c]; exact .some fun _ _ => rfl
  case h_3 | h_4 | h_5 => exact .some fun _ _ => rfl
  case h_6 => exact .none q

theorem pageRow_ignoresRequests : RowTable.IgnoresRequests (pageRow op) := by
  intro q k c
  unfold pageRow
  split
  · exact tailRow_ignoresRequests hop 0 q k c
  · exact .some fun _ _ => rfl

theorem zpRow_ignoresRequests : RowTable.IgnoresRequests (zpRow op) := by
  intro q k c
  unfold zpRow
  split
  case h_1 => exact .some fun _ _ => rfl
  case h_2 => exact tailRow_ignoresRequests hop _ q k c
  case h_3 => exact .none q

/-- The index is a register, not a request. -/
theorem zpIndexedRow_ignoresRequests {idx : Cpu → Byte} (hidx : ∀ q c, idx (c.withRequests q) = idx c) :
    RowTable.IgnoresRequests (fun k c => zpIndexedRow (idx c) op k c) := by
  intro q k c
  simp only [hidx]
  unfold zpIndexedRow
  split
  case h_1 | h_2 => exact .some fun _ _ => rfl
  case h_3 => exact tailRow_ignoresRequests hop _ q k c
  case h_4 => exact .none q

theorem absIndexedRow_ignoresRequests {idx : Cpu → Byte} (hidx : ∀ q c, idx (c.withRequests q) = idx c) :
    RowTable.IgnoresRequests (fun k c => absIndexedRow (idx c) op k c) := by
  intro q k c
  simp only [hidx]
  unfold absIndexedRow
  split
  case h_1 | h_2 => exact .some fun _ _ => rfl
  case h_3 => exact pageRow_ignoresRequests hop q k c
  case h_4 => exact tailRow_ignoresRequests hop _ q k c
  case h_5 => exact .none q

theorem absRow_ignoresRequests : RowTable.IgnoresRequests (absRow op) := by
  intro q k c
  unfold absRow
  split
  case h_8 => exact tailRow_ignoresRequests hop _ q k c
  case h_9 => exact .none q
  all_goals exact .some fun _ _ => rfl

theorem izxRow_ignoresRequests : RowTable.IgnoresRequests (izxRow op) := by
  intro q k c
  unfold izxRow
  split
  case h_5 => exact tailRow_ignoresRequests hop _ q k c
  case h_6 => exact .none q
  all_goals exact .some fun _ _ => rfl

theorem izyRow_ignoresRequests : RowTable.IgnoresRequests (izyRow op) := by
  intro q k c
  unfold izyRow
  split
  case h_4 => exact pageRow_ignoresRequests hop q k c
  case h_5 => exact tailRow_ignoresRequests hop _ q k c
  case h_6 => exact .none q
  all_goals exact .some fun _ _ => rfl

theorem immRow_ignoresRequests : RowTable.IgnoresRequests (immRow op) := by
  intro q k c
  have hq := hop q
  unfold immRow
  split
  case h_1 => cases hq with | read h => exact .some fun v d => congrArg Cpu.retire (h v d.incPc)
  case h_2 => exact .none q

end

/-- The flags a branch tests are not the requests. -/
theorem relRow_ignoresRequests (op : Operation) : RowTable.IgnoresRequests (relRow op) := by
  intro q k c
  unfold relRow
  split
  case h_1 | h_2 => exact .some fun _ _ => by simp only [Row.update, apply_ite (Cpu.withRequests q)]; rfl
  case h_3 => exact .some fun _ _ => rfl
  case h_4 => exact .none q

theorem indRow_ignoresRequests : RowTable.IgnoresRequests indRow := by
  intro q k c
  unfold indRow
  split
  case h_5 => exact .none q
  all_goals exact .some fun _ _ => rfl

theorem accRow_ignoresRequests (op : Operation) : RowTable.IgnoresRequests (accRow op) := by
  intro q k c
  unfold accRow
  split
  case h_1 => exact .some fun _ _ => rfl
  case h_2 => exact .none q

theorem vectorRow_ignoresRequests (vec : Addr) : RowTable.IgnoresRequests (fun k _ => vectorRow vec k) := by
  intro q k c
  simp only [vectorRow]
  split
  case h_1 | h_2 => exact .some fun _ _ => rfl
  case h_3 => exact .none q

theorem impRow_ignoresRequests {op : Operation} (hop : ∀ q, op.Commutes (Cpu.withRequests q)) :
    RowTable.IgnoresRequests (impRow op) := by
  intro q k c
  have hq := hop q
  unfold impRow
  split
  case h_1 => cases hq with | implied h => exact .some fun _ d => congrArg Cpu.retire (h d)
  case h_3 => cases hq with | push h => rw [h c]; exact .some fun _ _ => rfl
  case h_6 => cases hq with | pull h => exact .some fun v d => congrArg Cpu.retire (h v d)
  case h_21 => exact vectorRow_ignoresRequests _ q k c
  case h_22 => exact .none q
  all_goals exact .some fun _ _ => rfl

theorem sequenceRow_ignoresRequests (b54 : BitVec 2) (seq : Seq) :
    RowTable.IgnoresRequests (sequenceRow b54 seq) := by
  intro q k c
  unfold sequenceRow
  split
  case h_8 => exact vectorRow_ignoresRequests _ q k c
  all_goals exact .some fun _ _ => rfl

theorem instrRow_ignoresRequests {op : Operation} (hop : ∀ q, op.Commutes (Cpu.withRequests q)) (mode : Mode) :
    RowTable.IgnoresRequests (instrRow op mode) := by
  cases mode with
  | imp => exact impRow_ignoresRequests hop
  | acc => exact accRow_ignoresRequests op
  | imm => exact immRow_ignoresRequests hop
  | zp => exact zpRow_ignoresRequests hop
  | zpx => exact zpIndexedRow_ignoresRequests hop (idx := Cpu.x) fun _ _ => rfl
  | zpy => exact zpIndexedRow_ignoresRequests hop (idx := Cpu.y) fun _ _ => rfl
  | abs => exact absRow_ignoresRequests hop
  | abx => exact absIndexedRow_ignoresRequests hop (idx := Cpu.x) fun _ _ => rfl
  | aby => exact absIndexedRow_ignoresRequests hop (idx := Cpu.y) fun _ _ => rfl
  | ind => exact indRow_ignoresRequests
  | izx => exact izxRow_ignoresRequests hop
  | izy => exact izyRow_ignoresRequests hop
  | rel => exact relRow_ignoresRequests op

theorem row_ignoresRequests (p : Params) : RowTable.IgnoresRequests (fun k c => k.row p c) := by
  intro q k c
  simp only [InFlight.row]
  split
  case h_1 =>
    split
    · exact .none q
    · exact instrRow_ignoresRequests (fun q => operation_commutes_withRequests q _) _ q k c
  case h_2 => exact sequenceRow_ignoresRequests p.pushBitsHw _ q k c

/-! ## Cycles inside a sequence -/

theorem State.dummyRead_mapCpu (g : Cpu → Cpu) (a : Addr) (s : State) :
    (s.mapCpu g).dummyRead a = (s.dummyRead a).mapCpu g := by
  unfold State.dummyRead
  rw [State.mapCpu_params]
  split <;> rfl

theorem State.dummyWrite_mapCpu (g : Cpu → Cpu) (a : Addr) (v : Byte) (s : State) :
    (s.mapCpu g).dummyWrite a v = (s.dummyWrite a v).mapCpu g := by
  unfold State.dummyWrite
  rw [State.mapCpu_params]
  split <;> rfl

/-- The bus access of a row does not see a change of the core that its register update keeps. -/
theorem Row.perform_mapCpu {r : Row} {g : Cpu → Cpu} (h : ∀ v c, r.update v (g c) = g (r.update v c)) (s : State) :
    r.perform (s.mapCpu g) = (r.perform s).mapCpu g := by
  cases r with
  | read a f => exact congrArg (fun c => { s.read a with cpu := c }) (h (s.value a) s.cpu)
  | write a v f => exact congrArg (fun c => { s.write a v with cpu := c }) (h v s.cpu)
  | dummyRead a f =>
    rw [Row.perform, Row.perform, State.dummyRead_mapCpu]
    exact congrArg (fun c => { s.dummyRead a with cpu := c }) (h 0 (s.dummyRead a).cpu)
  | dummyWrite a v f =>
    rw [Row.perform, Row.perform, State.dummyWrite_mapCpu]
    exact congrArg (fun c => { s.dummyWrite a v with cpu := c }) (h v (s.dummyWrite a v).cpu)

/-- The cycle of a core inside a sequence is a row of its table. -/
theorem row_of_cycle {s t : State} {k : InFlight} (hk : s.cpu.control = .busy k) (h : cycle s = .next t) :
    s.cpu.fault = none ∧ ∃ r, k.row s.params s.cpu = some r ∧ t = r.perform s := by
  cases hf : s.cpu.fault with
  | some b => cases (cycle_of_fault hf).symm.trans h
  | none =>
    cases hr : k.row s.params s.cpu with
    | none => cases (cycle_of_noRow hf hk hr).symm.trans h
    | some r =>
      cases (cycle_of_busy hf hk hr).symm.trans h
      exact ⟨rfl, r, rfl, rfl⟩

/-- Inside a sequence any requests `q` can be pending: the cycle does the same, and they are still there. -/
theorem cycle_withRequests {s t : State} {k : InFlight} (hk : s.cpu.control = .busy k) (h : cycle s = .next t)
    (q : Requests) : cycle (s.mapCpu (Cpu.withRequests q)) = .next (t.mapCpu (Cpu.withRequests q)) := by
  obtain ⟨hf, r, hr, rfl⟩ := row_of_cycle hk h
  obtain ⟨hrow, hupdate⟩ := row_ignoresRequests s.params q k s.cpu
  rw [cycle_of_busy (s := s.mapCpu (Cpu.withRequests q)) hf hk (hrow.trans hr), Row.perform_mapCpu (hupdate r hr)]

/-- The pending requests are there after the cycle. -/
theorem cycle_requests {s t : State} {k : InFlight} (hk : s.cpu.control = .busy k) (h : cycle s = .next t) :
    t.cpu.requests = s.cpu.requests := by
  -- a cycle with the requests that are pending is the cycle
  have hsame := Host.Outcome.next.inj (h.symm.trans (cycle_withRequests hk h s.cpu.requests))
  rw [hsame]
  rfl

/-- Settles O15: a raise is a choice of the pending requests, and the cycle keeps any. -/
theorem requestsWaitInsideASequence : Obligations.RequestsWaitInsideASequence := by
  intro s t k hk h
  have hreq := cycle_requests hk h
  obtain ⟨hreset, hnmi, hirq⟩ : t.cpu.resetReq = s.cpu.resetReq ∧ t.cpu.nmiReq = s.cpu.nmiReq ∧
      t.cpu.irqReq = s.cpu.irqReq := by simpa [Cpu.requests] using hreq
  have hraise : ∀ f : Requests → Requests, cycle (s.mapCpu (Cpu.withRequests (f s.cpu.requests))) =
      .next (t.mapCpu (Cpu.withRequests (f t.cpu.requests))) :=
    fun f => hreq ▸ cycle_withRequests hk h (f s.cpu.requests)
  exact ⟨hraise fun q => { q with reset := true }, hraise fun q => { q with nmi := true },
    hraise fun q => { q with irq := true }, hreset, hnmi, hirq⟩

end Sys2Proof.Machine
end

section
/-! The addressing family (40_addressing_and_cycles.md), part 4: clocking through the tables of the memory modes
(R120, R121, R127 to R133). A core in a row of a sequence is a core between sequences put into that row
(`State.enter`); each row is one operation of the model on the latter. -/

namespace Sys2Proof.Machine

/-! ## A core put into a row -/

/-- The core with the control state `x` and no fault: in a row of a sequence, or between sequences. -/
def Cpu.enter (x : Control) (c : Cpu) : Cpu := { c with control := x, fault := none }

/-- The state with the core in the control state `x`, without a fault. -/
def State.enter (x : Control) (s : State) : State := s.mapCpu (Cpu.enter x)

theorem State.enter_eq_self {s : State} {x : Control} (hf : s.cpu.fault = none) (hx : s.cpu.control = x) :
    s.enter x = s := by
  subst hx
  show { s with cpu := { s.cpu with fault := none } } = s
  rw [← hf]

theorem operation_commutes_enter (n : Mnemonic) (x : Control) : n.operation.Commutes (Cpu.enter x) := by
  cases n <;> constructor <;> intros <;> rfl

theorem State.dummyRead_enter (x : Control) (a : Addr) (s : State) :
    (s.enter x).dummyRead a = (s.dummyRead a).enter x := State.dummyRead_mapCpu _ a s

theorem State.dummyWrite_enter (x : Control) (a : Addr) (v : Byte) (s : State) :
    (s.enter x).dummyWrite a v = (s.dummyWrite a v).enter x := State.dummyWrite_mapCpu _ a v s

/-- A row that goes on to the latches `k'`. -/
theorem runToIdle_row {n : Nat} {k k' : InFlight} {r : Row} {s s' : State}
    (hr : k.row s.params (s.cpu.enter (.busy k)) = some r)
    (hp : r.perform (s.enter (.busy k)) = s'.enter (.busy k')) :
    runToIdle (n + 1) (s.enter (.busy k)) = runToIdle n (s'.enter (.busy k')) :=
  (runToIdle_next ((cycle_of_busy rfl rfl hr).trans (congrArg _ hp))).trans rfl

/-- A row that retires. -/
theorem runToIdle_lastRow {n : Nat} {k : InFlight} {r : Row} {s s' : State}
    (hr : k.row s.params (s.cpu.enter (.busy k)) = some r)
    (hp : r.perform (s.enter (.busy k)) = s'.enter .idle) :
    runToIdle (n + 1) (s.enter (.busy k)) = .next (s'.enter .idle) :=
  (runToIdle_next ((cycle_of_busy rfl rfl hr).trans (congrArg _ hp))).trans rfl

theorem perform_read {a : Addr} {f : Byte → Cpu → Cpu} {g : Cpu → Cpu} {x y : Control} {s : State}
    (h : f (s.value a) (s.cpu.enter x) = (g s.cpu).enter y) :
    (Row.read a f).perform (s.enter x) = ((s.read a).mapCpu g).enter y :=
  congrArg (fun c => { s.read a with cpu := c }) h

theorem perform_dummyRead {a : Addr} {f g : Cpu → Cpu} {x y : Control} {s : State}
    (h : f (s.cpu.enter x) = (g s.cpu).enter y) :
    (Row.dummyRead a f).perform (s.enter x) = ((s.dummyRead a).mapCpu g).enter y := by
  rw [Row.perform, State.dummyRead_enter]
  rw [← State.dummyRead_cpu a s] at h
  exact congrArg (fun c => { s.dummyRead a with cpu := c }) h

theorem perform_dummyWrite {a : Addr} {v : Byte} {f g : Cpu → Cpu} {x y : Control} {s : State}
    (h : f (s.cpu.enter x) = (g s.cpu).enter y) :
    (Row.dummyWrite a v f).perform (s.enter x) = ((s.dummyWrite a v).mapCpu g).enter y := by
  rw [Row.perform, State.dummyWrite_enter]
  rw [← State.dummyWrite_cpu a v s] at h
  exact congrArg (fun c => { s.dummyWrite a v with cpu := c }) h

/-- The outcome with the core between sequences. -/
def settled : Outcome → Outcome
  | .next t => .next (t.enter .idle)
  | o => o

/-- The sequence `q` of the opcode `b` has the rows of the table, which may depend on the parameters. -/
def RowsOf (q : Seq) (b : Byte) (table : Params → RowTable) : Prop :=
  ∀ p k c, k.seq = q → k.ir = b → k.row p c = table p k c

/-! ## The tail of an operation -/

/-- The number of rows of the tail. -/
def Operation.tailRows : Operation → Nat
  | .modify _ _ => 3
  | _ => 1

theorem Operation.tailRows_le (op : Operation) : op.tailRows ≤ 3 := by
  cases op <;> simp [Operation.tailRows]

theorem Operation.tailRows_of_not_modifies {op : Operation} (h : op.modifies = false) : op.tailRows = 1 := by
  cases op <;> simp_all [Operation.tailRows, Operation.modifies]

/-- The rows from row `t` on are the tail of the operation. -/
def TailFrom (op : Operation) (k : InFlight) (t : Nat) : Prop :=
  ∀ j < op.tailRows, ∀ k' p c, k'.seq = k.seq → k'.ir = k.ir → k'.carry = k.carry → k'.t = t + j →
    k'.row p c = tailRow op j k' c

/-- "Write and modify classes always pay the penalty" (R151). -/
def Operation.paysAlways : Operation → Bool
  | .read _ => false
  | _ => true

/-! ## The rows of the memory modes, one equation each -/

section
variable {op : Operation}

/-- The page row of an operation that pays, or of a crossing, is the dummy read at the uncorrected address. -/
theorem pageRow_of_pays {k : InFlight} (h : (op.paysAlways || k.carry) = true) (c : Cpu) :
    pageRow op k c = some (.dummyRead k.ad (fun c => c.advance { k with adh := k.adh + bit k.carry })) := by
  unfold pageRow
  split
  case h_1 hc => rw [hc] at h; cases h
  case h_2 => rfl

/-- The page row of a read that crosses none is its effective access. -/
theorem pageRow_of_not_pays {k : InFlight} (h : (op.paysAlways || k.carry) = false) (c : Cpu) :
    op.tailRows = 1 ∧ pageRow op k c = tailRow op 0 k c := by
  cases op with
  | read f =>
    have hc : k.carry = false := h
    exact ⟨rfl, by simp [pageRow, hc]⟩
  | _ => cases h

theorem zpRow_tail {k : InFlight} {j : Nat} (h : k.t = 3 + j) (c : Cpu) : zpRow op k c = tailRow op j k c := by
  rw [Nat.add_comm] at h
  simp only [zpRow, h]

theorem zpIndexedRow_tail {k : InFlight} {j : Nat} (h : k.t = 4 + j) (idx : Byte) (c : Cpu) :
    zpIndexedRow idx op k c = tailRow op j k c := by
  rw [Nat.add_comm] at h
  simp only [zpIndexedRow, h]

theorem absIndexedRow_tail {k : InFlight} {j : Nat} (h : k.t = 5 + j) (idx : Byte) (c : Cpu) :
    absIndexedRow idx op k c = tailRow op j k c := by
  rw [Nat.add_comm] at h
  simp only [absIndexedRow, h]

theorem izxRow_tail {k : InFlight} {j : Nat} (h : k.t = 6 + j) (c : Cpu) : izxRow op k c = tailRow op j k c := by
  rw [Nat.add_comm] at h
  simp only [izxRow, h]

theorem izyRow_tail {k : InFlight} {j : Nat} (h : k.t = 6 + j) (c : Cpu) : izyRow op k c = tailRow op j k c := by
  rw [Nat.add_comm] at h
  simp only [izyRow, h]

theorem absRow_two (hacc : op.accesses = true) {k : InFlight} (h : k.t = 2) (c : Cpu) :
    absRow op k c = some (fetchRow (fun v => { k with adl := v }) c) := by
  cases op with
  | read | write | modify => simp [absRow, h]
  | _ => cases hacc

theorem absRow_three (hacc : op.accesses = true) {k : InFlight} (h : k.t = 3) (c : Cpu) :
    absRow op k c = some (fetchRow (fun v => { k with adh := v }) c) := by
  cases op with
  | read | write | modify => simp [absRow, h]
  | _ => cases hacc

end

/-- The address after the index is added to the low byte alone (R130). -/
theorem uncorrected_of_base {m : Mem} {s : State} {h l : Byte} (hbase : s.base m = word h l) :
    s.uncorrected m = word h (l + s.index m) ∧ s.crosses m = decide (0xFF < l.toNat + (s.index m).toNat) := by
  rw [State.uncorrected, lo_ea, crosses_eq_carry, hbase, hi_word, lo_word]
  exact ⟨rfl, rfl⟩

/-- The pointer bytes that the cycles get are those of page zero: no read changes RAM (20_memory.md R67). -/
theorem zeroPageWord_of_reads {m n : Nat} {s u v : State} (hu : State.Reads m s u) (hv : State.Reads n s v) (p : Byte) :
    s.con.zeroPageWord p = word (v.value (zeroPage (p + 1))) (u.value (zeroPage p)) := by
  rw [State.value_def, State.value_def, Console.cycleValue_zeroPage, Console.cycleValue_zeroPage, hu.alike.ram,
    hv.alike.ram]
  rfl

/-! ## The effective access (R127 to R133) -/

theorem runToIdle_readTail {n : Nat} {f : Byte → Cpu → Cpu} {k : InFlight} {s : State}
    (hf : ∀ x, (Operation.read f).Commutes (Cpu.enter x)) (htail : TailFrom (.read f) k k.t) :
    runToIdle (n + 1) (s.enter (.busy k)) = .next (((s.read k.ad).mapCpu (f (s.value k.ad))).enter .idle) := by
  refine runToIdle_lastRow (htail 0 Nat.zero_lt_one _ _ _ rfl rfl rfl rfl) (perform_read ?_)
  cases hf (.busy k) with
  | read h => exact congrArg Cpu.retire (h _ _)

theorem runToIdle_writeTail {n : Nat} {reg : Cpu → Byte} {k : InFlight} {s : State}
    (hreg : ∀ x, (Operation.write reg).Commutes (Cpu.enter x)) (htail : TailFrom (.write reg) k k.t) :
    runToIdle (n + 1) (s.enter (.busy k)) = .next ((s.write k.ad (reg s.cpu)).enter .idle) := by
  refine runToIdle_lastRow (htail 0 Nat.zero_lt_one _ _ _ rfl rfl rfl rfl) ?_
  cases hreg (.busy k) with
  | write h => rw [h]; rfl

/-- Read, dummy write of the old byte, write of the new one (R131). -/
theorem runToIdle_modifyTail {n : Nat} {new : Byte → Status → Byte} {flags : Byte → Status → Status}
    {k : InFlight} {s : State} (htail : TailFrom (.modify new flags) k k.t) :
    runToIdle (n + 3) (s.enter (.busy k)) =
      .next (((((s.read k.ad).dummyWrite k.ad (s.value k.ad)).write k.ad (new (s.value k.ad) s.cpu.p)).setP
        (flags (s.value k.ad) s.cpu.p)).enter .idle) :=
  calc runToIdle (n + 3) (s.enter (.busy k))
    _ = runToIdle (n + 2) ((s.read k.ad).enter (.busy { k with t := k.t + 1, dat := s.value k.ad })) :=
        runToIdle_row (htail 0 (by decide : 0 < 3) _ _ _ rfl rfl rfl rfl) rfl
    _ = runToIdle (n + 1) ((((s.read k.ad).dummyWrite k.ad (s.value k.ad)).setP
          (flags (s.value k.ad) s.cpu.p)).enter
          (.busy { k with t := k.t + 2, dat := new (s.value k.ad) s.cpu.p })) :=
        runToIdle_row (htail 1 (by decide : 1 < 3) _ _ _ rfl rfl rfl rfl)
          (perform_dummyWrite (g := fun c => { c with p := flags (s.value k.ad) s.cpu.p }) rfl)
    _ = _ := runToIdle_lastRow (htail 2 (by decide : 2 < 3) _ _ _ rfl rfl rfl rfl) rfl

section
variable {op : Operation} (hcom : ∀ x, op.Commutes (Cpu.enter x)) (hacc : op.accesses = true)
include hcom hacc

/-- From the complete address on, the table does what the operation means. -/
theorem runToIdle_tail {n : Nat} (hn : op.tailRows ≤ n) {k : InFlight} (htail : TailFrom op k k.t) {m : Mem}
    {s : State} (had : k.ad = s.ea m) (operand : Nat) :
    runToIdle n ((s.addressCycles op.paysAlways m).enter (.busy k)) =
      settled (op.meaning none (some m) operand s) := by
  obtain ⟨n, rfl⟩ := Nat.exists_eq_add_of_le' hn
  cases op with
  | read f =>
    refine (runToIdle_readTail hcom htail).trans ?_
    rw [had]
    rfl
  | write reg =>
    refine (runToIdle_writeTail hcom htail).trans ?_
    rw [had, State.addressCycles_cpu]
    rfl
  | modify new flags =>
    refine (runToIdle_modifyTail htail).trans ?_
    rw [had, State.addressCycles_cpu]
    rfl
  | _ => cases hacc

/-- From the page row on, the table does what the operation means, with the page cycle where it is paid (R130, R133);
`u` is the state before it. -/
theorem runToIdle_page {n : Nat} (hn : op.tailRows < n) {k : InFlight}
    (hpage : ∀ k' p c, k'.seq = k.seq → k'.ir = k.ir → k'.t = k.t → k'.row p c = pageRow op k' c)
    (htail : TailFrom op k (k.t + 1)) {m : Mem} {s u : State} (had : k.ad = s.uncorrected m)
    (hcarry : k.carry = s.crosses m)
    (hu : s.addressCycles op.paysAlways m =
      if op.paysAlways || s.crosses m then u.dummyRead (s.uncorrected m) else u) (operand : Nat) :
    runToIdle n (u.enter (.busy k)) = settled (op.meaning none (some m) operand s) := by
  have hadh : k.adh = hi (s.base m) := by simpa [InFlight.ad, State.uncorrected] using congrArg hi had
  have hadl : k.adl = lo (s.ea m) := by simpa [InFlight.ad, State.uncorrected] using congrArg lo had
  have hea : word (k.adh + bit k.carry) k.adl = s.ea m := by rw [hadh, hadl, hcarry, ← hi_ea, word_hi_lo]
  cases hpays : op.paysAlways || k.carry with
  | true =>
    rw [← hcarry, ← had, hpays, if_pos rfl] at hu
    obtain ⟨n, rfl⟩ := Nat.exists_eq_succ_of_ne_zero (Nat.ne_zero_of_lt hn)
    have hrow := fun p c => (hpage k p c rfl rfl rfl).trans (pageRow_of_pays hpays c)
    refine (runToIdle_row (hrow _ _) (perform_dummyRead (g := id) rfl)).trans ?_
    have hrest := runToIdle_tail hcom hacc (Nat.le_of_lt_succ hn)
      (k := { k with t := k.t + 1, adh := k.adh + bit k.carry }) htail hea operand
    rw [hu] at hrest
    exact hrest
  | false =>
    rw [← hcarry, hpays] at hu
    have hnocarry : k.carry = false := (Bool.or_eq_false_iff.1 hpays).2
    have hk : k.ad = s.ea m := by rw [← hea, hnocarry]; simp [bit, InFlight.ad]
    have hnow : TailFrom op k k.t := by
      intro j hj k' p c hq hb hc ht
      obtain ⟨hone, hrow⟩ := pageRow_of_not_pays (op := op) (k := k') (hc ▸ hpays) c
      obtain rfl : j = 0 := by omega
      exact (hpage k' p c hq hb ht).trans hrow
    have hrest := runToIdle_tail hcom hacc (Nat.le_of_lt hn) hnow hk operand
    rw [hu] at hrest
    exact hrest

/-! ## The memory modes (R127 to R133) -/

variable {b : Byte} (s : State) (operand : Nat)

theorem runToIdle_zp (ht : RowsOf .instr b (fun _ => zpRow op)) :
    runToIdle 6 (s.enter (.busy (.start .instr b))) =
      settled (op.meaning none (some (.zp s.fetchValue)) operand s.fetch) := by
  have htail : TailFrom op { InFlight.start .instr b with t := 3, adl := s.fetchValue, adh := 0 } 3 :=
    fun j _ k p c hq hb _ hj => (ht p k c hq hb).trans (zpRow_tail hj c)
  have hea : s.fetch.ea (.zp s.fetchValue) = zeroPage s.fetchValue := ea_eq_base rfl
  calc runToIdle 6 (s.enter (.busy (.start .instr b)))
    _ = runToIdle 5 (s.fetch.enter
          (.busy { InFlight.start .instr b with t := 3, adl := s.fetchValue, adh := 0 })) :=
        runToIdle_row (ht _ _ _ rfl rfl) rfl
    _ = _ := runToIdle_tail hcom hacc (op.tailRows_le.trans (by decide)) htail hea.symm operand

/-- ZPX and ZPY, `idx` the index register. -/
theorem runToIdle_zpIndexed {idx : Cpu → Byte} (hidx : ∀ x c, idx (Cpu.enter x c) = idx c) {m : Mem}
    (hea : s.fetch.ea m = zeroPage (s.fetchValue + idx s.fetch.cpu))
    (hcycles : ∀ w, s.fetch.addressCycles w m = s.fetch.dummyRead (zeroPage s.fetchValue))
    (ht : RowsOf .instr b (fun _ k c => zpIndexedRow (idx c) op k c)) :
    runToIdle 6 (s.enter (.busy (.start .instr b))) = settled (op.meaning none (some m) operand s.fetch) := by
  have htail : TailFrom op
      { InFlight.start .instr b with t := 4, adl := s.fetchValue + idx s.fetch.cpu, adh := 0 } 4 :=
    fun j _ k p c hq hb _ hj => (ht p k c hq hb).trans (zpIndexedRow_tail hj _ c)
  calc runToIdle 6 (s.enter (.busy (.start .instr b)))
    _ = runToIdle 5 (s.fetch.enter
          (.busy { InFlight.start .instr b with t := 3, adl := s.fetchValue, adh := 0 })) :=
        runToIdle_row (ht _ _ _ rfl rfl) rfl
    _ = runToIdle 4 ((s.fetch.dummyRead (zeroPage s.fetchValue)).enter
          (.busy { InFlight.start .instr b with t := 4, adl := s.fetchValue + idx s.fetch.cpu, adh := 0 })) := by
        refine runToIdle_row (ht _ _ _ rfl rfl) (perform_dummyRead (g := id) ?_)
        rw [hidx]
        rfl
    _ = _ := by
        rw [← hcycles op.paysAlways]
        exact runToIdle_tail hcom hacc (op.tailRows_le.trans (by decide)) htail hea.symm operand

theorem runToIdle_abs (ht : RowsOf .instr b (fun _ => absRow op)) :
    runToIdle 6 (s.enter (.busy (.start .instr b))) =
      settled (op.meaning none (some (.abs (word s.fetch.fetchValue s.fetchValue))) operand s.fetch.fetch) := by
  have htail : TailFrom op
      { InFlight.start .instr b with t := 4, adl := s.fetchValue, adh := s.fetch.fetchValue } 4 :=
    fun j _ k p c hq hb _ hj => (ht p k c hq hb).trans (absRow_tail hacc (hj.trans (Nat.add_comm 4 j)) c)
  have hea : s.fetch.fetch.ea (.abs (word s.fetch.fetchValue s.fetchValue)) = word s.fetch.fetchValue s.fetchValue :=
    ea_eq_base rfl
  calc runToIdle 6 (s.enter (.busy (.start .instr b)))
    _ = runToIdle 5 (s.fetch.enter (.busy { InFlight.start .instr b with t := 3, adl := s.fetchValue })) :=
        runToIdle_row ((ht _ _ _ rfl rfl).trans (absRow_two hacc rfl _)) rfl
    _ = runToIdle 4 (s.fetch.fetch.enter
          (.busy { InFlight.start .instr b with t := 4, adl := s.fetchValue, adh := s.fetch.fetchValue })) :=
        runToIdle_row ((ht _ _ _ rfl rfl).trans (absRow_three hacc rfl _)) rfl
    _ = _ := runToIdle_tail hcom hacc (op.tailRows_le.trans (by decide)) htail hea.symm operand

/-- ABX and ABY, `idx` the index register. -/
theorem runToIdle_absIndexed {idx : Cpu → Byte} (hidx : ∀ x c, idx (Cpu.enter x c) = idx c) {m : Mem}
    (hbase : s.fetch.fetch.base m = word s.fetch.fetchValue s.fetchValue)
    (hindex : s.fetch.fetch.index m = idx s.fetch.cpu)
    (hcycles : ∀ w, s.fetch.fetch.addressCycles w m =
      if w || s.fetch.fetch.crosses m then s.fetch.fetch.dummyRead (s.fetch.fetch.uncorrected m) else s.fetch.fetch)
    (ht : RowsOf .instr b (fun _ k c => absIndexedRow (idx c) op k c)) :
    runToIdle 6 (s.enter (.busy (.start .instr b))) = settled (op.meaning none (some m) operand s.fetch.fetch) := by
  obtain ⟨had, hcarry⟩ := uncorrected_of_base hbase
  rw [hindex] at had hcarry
  have hrow : ∀ p x,
      InFlight.row p { InFlight.start .instr b with t := 3, adl := s.fetchValue } (s.fetch.cpu.enter x) =
        some (fetchRow (fun v => { InFlight.start .instr b with t := 3, adl := s.fetchValue }.indexed v
          (idx s.fetch.cpu)) (s.fetch.cpu.enter x)) :=
    fun p x => (ht p _ _ rfl rfl).trans (by simp only [hidx]; rfl)
  calc runToIdle 6 (s.enter (.busy (.start .instr b)))
    _ = runToIdle 5 (s.fetch.enter (.busy { InFlight.start .instr b with t := 3, adl := s.fetchValue })) :=
        runToIdle_row (ht _ _ _ rfl rfl) rfl
    _ = runToIdle 4 (s.fetch.fetch.enter (.busy { InFlight.start .instr b with
          t := 4
          adl := s.fetchValue + idx s.fetch.cpu
          adh := s.fetch.fetchValue
          carry := decide (0xFF < s.fetchValue.toNat + (idx s.fetch.cpu).toNat) })) :=
        runToIdle_row (hrow _ _) rfl
    _ = _ := by
        have hn : op.tailRows < 4 := op.tailRows_le.trans_lt (by decide)
        refine runToIdle_page hcom hacc hn ?_ ?_ ?_ ?_ (hcycles _) operand
        · exact fun k p c hq hb hk => (ht p k c hq hb).trans (by simp only [absIndexedRow, hk])
        · exact fun j _ k p c hq hb _ hj => (ht p k c hq hb).trans (absIndexedRow_tail hj _ c)
        · exact had.symm
        · exact hcarry.symm

/-- (zp,X) has no modify class, whose tail would not end by row 7. -/
theorem runToIdle_izx (hmod : op.modifies = false) (ht : RowsOf .instr b (fun _ => izxRow op)) :
    runToIdle 6 (s.enter (.busy (.start .instr b))) =
      settled (op.meaning none (some (.izx s.fetchValue)) operand s.fetch) := by
  have hlow := State.dummyRead_reads (zeroPage s.fetchValue) s.fetch
  have hword := zeroPageWord_of_reads hlow (hlow.trans (State.read_reads (zeroPage (s.fetchValue + s.cpu.x)) _))
    (s.fetchValue + s.cpu.x)
  have hea : s.fetch.ea (.izx s.fetchValue) = s.fetch.con.zeroPageWord (s.fetchValue + s.cpu.x) := ea_eq_base rfl
  calc runToIdle 6 (s.enter (.busy (.start .instr b)))
    _ = runToIdle 5 (s.fetch.enter (.busy { InFlight.start .instr b with t := 3, ptr := s.fetchValue })) :=
        runToIdle_row (ht _ _ _ rfl rfl) rfl
    _ = runToIdle 4 ((s.fetch.dummyRead (zeroPage s.fetchValue)).enter
          (.busy { InFlight.start .instr b with t := 4, ptr := s.fetchValue + s.cpu.x })) :=
        runToIdle_row (ht _ _ _ rfl rfl) (perform_dummyRead (g := id) rfl)
    _ = runToIdle 3 (((s.fetch.dummyRead (zeroPage s.fetchValue)).read (zeroPage (s.fetchValue + s.cpu.x))).enter
          (.busy { InFlight.start .instr b with
            t := 5
            ptr := s.fetchValue + s.cpu.x
            adl := (s.fetch.dummyRead (zeroPage s.fetchValue)).value (zeroPage (s.fetchValue + s.cpu.x)) })) :=
        runToIdle_row (ht _ _ _ rfl rfl) rfl
    _ = runToIdle 2 ((s.fetch.addressCycles op.paysAlways (.izx s.fetchValue)).enter
          (.busy { InFlight.start .instr b with
            t := 6
            ptr := s.fetchValue + s.cpu.x
            adl := (s.fetch.dummyRead (zeroPage s.fetchValue)).value (zeroPage (s.fetchValue + s.cpu.x))
            adh := ((s.fetch.dummyRead (zeroPage s.fetchValue)).read (zeroPage (s.fetchValue + s.cpu.x))).value
              (zeroPage (s.fetchValue + s.cpu.x + 1)) })) :=
        runToIdle_row (ht _ _ _ rfl rfl) rfl
    _ = _ := by
        have hn : op.tailRows ≤ 2 := by rw [op.tailRows_of_not_modifies hmod]; decide
        refine runToIdle_tail hcom hacc hn ?_ ?_ operand
        · exact fun j _ k p c hq hb _ hj => (ht p k c hq hb).trans (izxRow_tail hj c)
        · exact (hea.trans hword).symm

/-- (zp),Y has no modify class, whose tail would not end by row 7. -/
theorem runToIdle_izy (hmod : op.modifies = false) (ht : RowsOf .instr b (fun _ => izyRow op)) :
    runToIdle 6 (s.enter (.busy (.start .instr b))) =
      settled (op.meaning none (some (.izy s.fetchValue)) operand s.fetch) := by
  have hbase : s.fetch.base (.izy s.fetchValue) = _ :=
    zeroPageWord_of_reads (.refl s.fetch) (State.read_reads (zeroPage s.fetchValue) _) s.fetchValue
  obtain ⟨had, hcarry⟩ := uncorrected_of_base hbase
  calc runToIdle 6 (s.enter (.busy (.start .instr b)))
    _ = runToIdle 5 (s.fetch.enter (.busy { InFlight.start .instr b with t := 3, ptr := s.fetchValue })) :=
        runToIdle_row (ht _ _ _ rfl rfl) rfl
    _ = runToIdle 4 ((s.fetch.read (zeroPage s.fetchValue)).enter
          (.busy { InFlight.start .instr b with
            t := 4
            ptr := s.fetchValue
            adl := s.fetch.value (zeroPage s.fetchValue) })) :=
        runToIdle_row (ht _ _ _ rfl rfl) rfl
    _ = runToIdle 3 (((s.fetch.read (zeroPage s.fetchValue)).read (zeroPage (s.fetchValue + 1))).enter
          (.busy { InFlight.start .instr b with
            t := 5
            ptr := s.fetchValue
            adl := s.fetch.value (zeroPage s.fetchValue) + s.cpu.y
            adh := (s.fetch.read (zeroPage s.fetchValue)).value (zeroPage (s.fetchValue + 1))
            carry := decide (0xFF < (s.fetch.value (zeroPage s.fetchValue)).toNat + s.cpu.y.toNat) })) :=
        runToIdle_row (ht _ _ _ rfl rfl) rfl
    _ = _ := by
        have hn : op.tailRows < 3 := by rw [op.tailRows_of_not_modifies hmod]; decide
        refine runToIdle_page hcom hacc hn ?_ ?_ ?_ ?_ rfl operand
        · exact fun k p c hq hb hk => (ht p k c hq hb).trans (by simp only [izyRow, hk])
        · exact fun j _ k p c hq hb _ hj => (ht p k c hq hb).trans (izyRow_tail hj c)
        · exact had.symm
        · exact hcarry.symm

end

end Sys2Proof.Machine
end

section
/-! The addressing family (40_addressing_and_cycles.md), part 5: the tables of the instructions without a memory operand
(R125, R126, R135 to R145) and of the hardware sequences (60_exceptions.md R345). -/

namespace Sys2Proof.Machine

/-! ## Instructions that work on registers (R125, R126) -/

section
variable {b : Byte} (s : State)

theorem runToIdle_imm {f : Byte → Cpu → Cpu} (hf : ∀ x, (Operation.read f).Commutes (Cpu.enter x))
    (ht : RowsOf .instr b (fun _ => immRow (.read f))) :
    runToIdle 6 (s.enter (.busy (.start .instr b))) = settled (immediateClass f s.fetchValue s.fetch) := by
  refine runToIdle_lastRow (ht _ _ _ rfl rfl) (perform_read (g := fun c => f s.fetchValue c.incPc) ?_)
  cases hf (.busy (.start .instr b)) with
  | read h => exact congrArg Cpu.retire (h _ s.cpu.incPc)

theorem runToIdle_implied {f : Cpu → Cpu} (hf : ∀ x, (Operation.implied f).Commutes (Cpu.enter x))
    (ht : RowsOf .instr b (fun _ => impRow (.implied f))) :
    runToIdle 6 (s.enter (.busy (.start .instr b))) = settled (impliedClass f s) := by
  refine runToIdle_lastRow (ht _ _ _ rfl rfl) (perform_dummyRead (g := f) ?_)
  cases hf (.busy (.start .instr b)) with
  | implied h => exact congrArg Cpu.retire (h s.cpu)

theorem runToIdle_acc {new : Byte → Status → Byte} {flags : Byte → Status → Status}
    (ht : RowsOf .instr b (fun _ => accRow (.modify new flags))) :
    runToIdle 6 (s.enter (.busy (.start .instr b))) = settled (accumulatorClass new flags s) := by
  refine runToIdle_lastRow (ht _ _ _ rfl rfl) ?_
  exact perform_dummyRead rfl

/-! ## Branches (R135) -/

theorem lo_branchTarget (pcn : Addr) (d : Byte) : lo (branchTarget pcn d) = lo pcn + d := by
  have hd : lo (sext16 d) = d := by
    refine BitVec.eq_of_getLsbD_eq fun j hj => ?_
    have hj16 : j < 16 := by omega
    simp only [lo, sext16, BitVec.getLsbD_setWidth, BitVec.getLsbD_signExtend, hj, hj16, decide_true, Bool.true_and,
      if_true]
  rw [branchTarget, lo, BitVec.setWidth_add _ _ (by decide)]
  exact congrArg (lo pcn + ·) hd

/-- In row 4 PC "has the low byte of the target and the page of `pcn`": `pcn` is recovered from it. -/
theorem word_of_branchUncorrected (pcn : Addr) (d : Byte) :
    word (hi (branchUncorrected pcn d)) (lo (branchUncorrected pcn d) - d) = pcn := by
  refine word_ext ?_ ?_ <;> simp [branchUncorrected, lo_branchTarget]

theorem runToIdle_takeBranch {n : Nat} {cond : Status → Bool} {k : InFlight} (hk : k.t = 3)
    (ht : ∀ k' p c, k'.seq = k.seq → k'.ir = k.ir → k'.row p c = relRow (.branch cond) k' c) :
    runToIdle (n + 2) (s.enter (.busy k)) = .next ((s.takeBranch k.dat).enter .idle) := by
  have hrow : ∀ p c, k.row p c = some (.dummyRead c.pc (fun c =>
      let r := { c with pc := branchUncorrected c.pc k.dat }
      if branchCrosses c.pc k.dat then r.advance k else r.retire)) :=
    fun p c => (ht k p c rfl rfl).trans (by simp only [relRow, hk])
  cases hx : branchCrosses s.cpu.pc k.dat with
  | true =>
    have hlast : ∀ p c, InFlight.row p { k with t := k.t + 1 } c = some (.dummyRead c.pc (fun c =>
        c.jumpTo (branchTarget (word (hi c.pc) (lo c.pc - k.dat)) k.dat))) :=
      fun p c => (ht { k with t := k.t + 1 } p c rfl rfl).trans (by simp only [relRow, hk])
    refine (runToIdle_row (hrow _ _) (perform_dummyRead
      (g := fun c => { c with pc := branchUncorrected s.cpu.pc k.dat }) (if_pos hx))).trans ?_
    refine runToIdle_lastRow (hlast _ _) ?_
    simp only [State.takeBranch, hx, if_true]
    refine perform_dummyRead (g := fun c => { c with pc := branchTarget s.cpu.pc k.dat }) ?_
    exact congrArg (fun w => Cpu.enter .idle { (s.dummyRead s.cpu.pc).cpu with pc := branchTarget w k.dat })
      (word_of_branchUncorrected s.cpu.pc k.dat)
  | false =>
    simp only [State.takeBranch, hx, Bool.false_eq_true, if_false]
    exact runToIdle_lastRow (hrow _ _) (perform_dummyRead
      (g := fun c => { c with pc := branchUncorrected s.cpu.pc k.dat }) (if_neg (by simp [Cpu.enter, hx])))

theorem runToIdle_branch {cond : Status → Bool} (ht : RowsOf .instr b (fun _ => relRow (.branch cond))) :
    runToIdle 6 (s.enter (.busy (.start .instr b))) = settled (branchClass cond s.fetchValue s.fetch) := by
  have hrow : ∀ p c, (InFlight.start .instr b).row p c = some (.read c.pc (fun v c =>
      if cond c.p then c.incPc.advance { InFlight.start .instr b with dat := v } else c.incPc.retire)) :=
    fun p c => ht p _ c rfl rfl
  cases hc : cond s.cpu.p with
  | true =>
    have htaken : branchClass cond s.fetchValue s.fetch = .next (s.fetch.takeBranch s.fetchValue) := by
      simp [branchClass, hc]
    rw [htaken]
    refine (runToIdle_row (hrow _ _) (perform_read (g := Cpu.incPc) (if_pos hc))).trans ?_
    exact runToIdle_takeBranch s.fetch rfl (fun k p c => ht p k c)
  | false =>
    have hnot : branchClass cond s.fetchValue s.fetch = .next s.fetch := by
      simp [branchClass, hc]
    rw [hnot]
    exact runToIdle_lastRow (hrow _ _) (perform_read (g := Cpu.incPc) (if_neg (by simp [Cpu.enter, hc])))

/-! ## The stack (R140, R143 to R145) -/

theorem runToIdle_push {reg : Cpu → Byte} (hreg : ∀ x, (Operation.push reg).Commutes (Cpu.enter x))
    (ht : RowsOf .instr b (fun _ => impRow (.push reg))) :
    runToIdle 6 (s.enter (.busy (.start .instr b))) = .next ((s.pushRows reg).enter .idle) := by
  have hcpu : (s.dummyRead s.cpu.pc).cpu = s.cpu := State.dummyRead_cpu _ _
  calc runToIdle 6 (s.enter (.busy (.start .instr b)))
    _ = runToIdle 5 ((s.dummyRead s.cpu.pc).enter (.busy { InFlight.start .instr b with t := 3 })) :=
        runToIdle_row (ht _ _ _ rfl rfl) (perform_dummyRead (g := id) rfl)
    _ = _ := by
        refine runToIdle_lastRow (ht _ _ _ rfl rfl) ?_
        cases hreg (.busy { InFlight.start .instr b with t := 3 }) with
        | push h => rw [h, State.pushRows, ← congrArg reg hcpu]; rfl

theorem runToIdle_pull {f : Byte → Cpu → Cpu} (hf : ∀ x, (Operation.pull f).Commutes (Cpu.enter x))
    (ht : RowsOf .instr b (fun _ => impRow (.pull f))) :
    runToIdle 6 (s.enter (.busy (.start .instr b))) = .next ((s.pullRows f).enter .idle) := by
  calc runToIdle 6 (s.enter (.busy (.start .instr b)))
    _ = runToIdle 5 ((s.dummyRead s.cpu.pc).enter (.busy { InFlight.start .instr b with t := 3 })) :=
        runToIdle_row (ht _ _ _ rfl rfl) (perform_dummyRead (g := id) rfl)
    _ = runToIdle 4 ((s.dummyRead s.cpu.pc).pullRow.enter (.busy { InFlight.start .instr b with t := 4 })) :=
        runToIdle_row (ht _ _ _ rfl rfl) (perform_dummyRead (g := Cpu.incSp) rfl)
    _ = _ := by
        refine runToIdle_lastRow (ht _ _ _ rfl rfl) ?_
        cases hf (.busy { InFlight.start .instr b with t := 4 }) with
        | pull h => exact perform_read (congrArg Cpu.retire (h _ _))

theorem runToIdle_subroutineReturn (ht : RowsOf .instr b (fun _ => impRow .subroutineReturn)) :
    runToIdle 6 (s.enter (.busy (.start .instr b))) = .next (s.returnFromSubroutine.enter .idle) :=
  calc runToIdle 6 (s.enter (.busy (.start .instr b)))
    _ = runToIdle 5 ((s.dummyRead s.cpu.pc).enter (.busy { InFlight.start .instr b with t := 3 })) :=
        runToIdle_row (ht _ _ _ rfl rfl) (perform_dummyRead (g := id) rfl)
    _ = runToIdle 4 ((s.dummyRead s.cpu.pc).pullRow.enter (.busy { InFlight.start .instr b with t := 4 })) :=
        runToIdle_row (ht _ _ _ rfl rfl) (perform_dummyRead (g := Cpu.incSp) rfl)
    _ = runToIdle 3 ((State.rtsLow s).enter (.busy { InFlight.start .instr b with
          t := 5
          adl := (s.dummyRead s.cpu.pc).pullRow.stackValue })) :=
        runToIdle_row (ht _ _ _ rfl rfl) rfl
    _ = runToIdle 2 ((State.rtsHigh s).enter (.busy { InFlight.start .instr b with
          t := 6
          adl := (s.dummyRead s.cpu.pc).pullRow.stackValue
          adh := (State.rtsLow s).stackValue })) :=
        runToIdle_row (ht _ _ _ rfl rfl) rfl
    _ = _ := runToIdle_lastRow (ht _ _ _ rfl rfl) (perform_dummyRead (g := Cpu.incPc) rfl)

theorem runToIdle_interruptReturn (ht : RowsOf .instr b (fun _ => impRow .interruptReturn)) :
    runToIdle 6 (s.enter (.busy (.start .instr b))) = .next (s.interruptReturn.enter .idle) :=
  calc runToIdle 6 (s.enter (.busy (.start .instr b)))
    _ = runToIdle 5 ((s.dummyRead s.cpu.pc).enter (.busy { InFlight.start .instr b with t := 3 })) :=
        runToIdle_row (ht _ _ _ rfl rfl) (perform_dummyRead (g := id) rfl)
    _ = runToIdle 4 ((s.dummyRead s.cpu.pc).pullRow.enter (.busy { InFlight.start .instr b with t := 4 })) :=
        runToIdle_row (ht _ _ _ rfl rfl) (perform_dummyRead (g := Cpu.incSp) rfl)
    _ = runToIdle 3 ((State.rtiFlags (s.dummyRead s.cpu.pc)).enter
          (.busy { InFlight.start .instr b with t := 5 })) :=
        runToIdle_row (ht _ _ _ rfl rfl) rfl
    _ = runToIdle 2 ((State.rtiFlags (s.dummyRead s.cpu.pc)).stackRead.incSp.enter
          (.busy { InFlight.start .instr b with
            t := 6
            adl := (State.rtiFlags (s.dummyRead s.cpu.pc)).stackValue })) :=
        runToIdle_row (ht _ _ _ rfl rfl) rfl
    _ = _ := runToIdle_lastRow (ht _ _ _ rfl rfl) rfl

/-! ## Jumps and subroutines (R136, R137, R141) -/

theorem runToIdle_jump (ht : RowsOf .instr b (fun _ => absRow .jump)) :
    runToIdle 6 (s.enter (.busy (.start .instr b))) =
      .next ((s.fetch.fetch.setPc (word s.fetch.fetchValue s.fetchValue)).enter .idle) :=
  calc runToIdle 6 (s.enter (.busy (.start .instr b)))
    _ = runToIdle 5 (s.fetch.enter (.busy { InFlight.start .instr b with t := 3, adl := s.fetchValue })) :=
        runToIdle_row (ht _ _ _ rfl rfl) rfl
    _ = _ := runToIdle_lastRow (ht _ _ _ rfl rfl) rfl

theorem runToIdle_jumpIndirect (ht : RowsOf .instr b (fun _ => indRow)) :
    runToIdle 6 (s.enter (.busy (.start .instr b))) =
      .next ((s.fetch.fetch.jumpIndirect (word s.fetch.fetchValue s.fetchValue)).enter .idle) :=
  calc runToIdle 6 (s.enter (.busy (.start .instr b)))
    _ = runToIdle 5 (s.fetch.enter (.busy { InFlight.start .instr b with t := 3, adl := s.fetchValue })) :=
        runToIdle_row (ht _ _ _ rfl rfl) rfl
    _ = runToIdle 4 (s.fetch.fetch.enter
          (.busy { InFlight.start .instr b with t := 4, adl := s.fetchValue, adh := s.fetch.fetchValue })) :=
        runToIdle_row (ht _ _ _ rfl rfl) rfl
    _ = runToIdle 3 ((s.fetch.fetch.read (word s.fetch.fetchValue s.fetchValue)).enter
          (.busy { InFlight.start .instr b with
            t := 5
            adl := s.fetchValue
            adh := s.fetch.fetchValue
            dat := s.fetch.fetch.value (word s.fetch.fetchValue s.fetchValue) })) :=
        runToIdle_row (ht _ _ _ rfl rfl) rfl
    _ = _ := runToIdle_lastRow (ht _ _ _ rfl rfl) rfl

/-- The third byte of JSR is read last, after the pushes (R141). -/
theorem runToIdle_call (ht : RowsOf .instr b (fun _ => absRow .call)) :
    runToIdle 6 (s.enter (.busy (.start .instr b))) = .next ((s.fetch.callSubroutine s.fetchValue).enter .idle) := by
  generalize hu : s.fetch.dummyRead (stackAddr s.fetch.cpu.sp) = u
  have hpushed : State.callPushed s.fetch = (u.push (hi u.cpu.pc)).push (lo u.cpu.pc) := by
    rw [← hu, State.dummyRead_cpu]
    rfl
  rw [State.callSubroutine_eq, hpushed]
  calc runToIdle 6 (s.enter (.busy (.start .instr b)))
    _ = runToIdle 5 (s.fetch.enter (.busy { InFlight.start .instr b with t := 3, adl := s.fetchValue })) :=
        runToIdle_row (ht _ _ _ rfl rfl) rfl
    _ = runToIdle 4 (u.enter (.busy { InFlight.start .instr b with t := 4, adl := s.fetchValue })) :=
        hu ▸ runToIdle_row (ht _ _ _ rfl rfl) (perform_dummyRead (g := id) rfl)
    _ = runToIdle 3 ((u.push (hi u.cpu.pc)).enter
          (.busy { InFlight.start .instr b with t := 5, adl := s.fetchValue })) :=
        runToIdle_row (ht _ _ _ rfl rfl) rfl
    _ = runToIdle 2 (((u.push (hi u.cpu.pc)).push (lo u.cpu.pc)).enter
          (.busy { InFlight.start .instr b with t := 6, adl := s.fetchValue })) :=
        runToIdle_row (ht _ _ _ rfl rfl) rfl
    _ = _ := runToIdle_lastRow (ht _ _ _ rfl rfl) rfl

end

/-! ## Interrupts (R142; 60_exceptions.md R345) -/

/-- Rows 3 to 7 of BRK, IRQ and NMI. -/
def interruptRow (b54 : BitVec 2) (vec : Addr) : RowTable := fun k c =>
  match k.t with
  | 3 => some (pushRow (hi c.pc) k c)
  | 4 => some (pushRow (lo c.pc) k c)
  | 5 => some (pushRow (c.p.pack b54) k c)
  | _ => vectorRow vec k

theorem impRow_softwareInterrupt {k : InFlight} (h : 3 ≤ k.t) (c : Cpu) :
    impRow .softwareInterrupt k c = interruptRow 0b11 vecIrqBrk k c := by
  have h2 : k.t ≠ 2 := by omega
  unfold interruptRow
  split
  case h_1 ht | h_2 ht | h_3 ht => simp [impRow, ht]
  case h_4 => simp [impRow]

theorem sequenceRow_of_ne_reset {q : Seq} (hq : q ≠ .reset) (b54 : BitVec 2) {k : InFlight} (h : 3 ≤ k.t)
    (c : Cpu) : sequenceRow b54 q k c = interruptRow b54 (vectorOf q) k c := by
  have h2 : k.t ≠ 2 := by omega
  unfold interruptRow
  split
  case h_1 ht | h_2 ht | h_3 ht => simp [sequenceRow, ht]
  case h_4 => cases q <;> simp_all [sequenceRow]

section
variable {q : Seq} {b : Byte} (s : State)

/-- Rows 6 and 7. -/
theorem runToIdle_vector {n : Nat} {vec : Addr}
    (ht : ∀ p k c, k.seq = q → k.ir = b → 6 ≤ k.t → k.row p c = vectorRow vec k) :
    runToIdle (n + 2) (s.enter (.busy { InFlight.start q b with t := 6 })) = .next ((s.enterVector vec).enter .idle) :=
  calc runToIdle (n + 2) (s.enter (.busy { InFlight.start q b with t := 6 }))
    _ = runToIdle (n + 1) ((s.read vec).maskIrq.enter
          (.busy { InFlight.start q b with t := 7, adl := s.value vec })) :=
        runToIdle_row (ht _ _ _ rfl rfl (by decide : 6 ≤ 6)) rfl
    _ = _ := runToIdle_lastRow (ht _ _ _ rfl rfl (by decide : 6 ≤ 7)) rfl

/-- Rows 3 to 7. -/
theorem runToIdle_takeInterrupt {n : Nat} {b54 : Params → BitVec 2} {vec : Addr}
    (ht : ∀ p k c, k.seq = q → k.ir = b → 3 ≤ k.t → k.row p c = interruptRow (b54 p) vec k c) :
    runToIdle (n + 5) (s.enter (.busy { InFlight.start q b with t := 3 })) =
      .next ((s.takeInterrupt (b54 s.params) vec).enter .idle) := by
  have hvec : ∀ p k c, k.seq = q → k.ir = b → 6 ≤ k.t → k.row p c = vectorRow vec k := by
    intro p k c hq hb hk
    have h345 : k.t ≠ 3 ∧ k.t ≠ 4 ∧ k.t ≠ 5 := by omega
    rw [ht p k c hq hb (by omega)]
    simp [interruptRow, h345]
  calc runToIdle (n + 5) (s.enter (.busy { InFlight.start q b with t := 3 }))
    _ = runToIdle (n + 4) ((s.push (hi s.cpu.pc)).enter (.busy { InFlight.start q b with t := 4 })) :=
        runToIdle_row (ht _ _ _ rfl rfl (by decide : 3 ≤ 3)) rfl
    _ = runToIdle (n + 3) (((s.push (hi s.cpu.pc)).push (lo s.cpu.pc)).enter
          (.busy { InFlight.start q b with t := 5 })) :=
        runToIdle_row (ht _ _ _ rfl rfl (by decide : 3 ≤ 4)) rfl
    _ = runToIdle (n + 2) ((((s.push (hi s.cpu.pc)).push (lo s.cpu.pc)).push (s.cpu.p.pack (b54 s.params))).enter
          (.busy { InFlight.start q b with t := 6 })) :=
        runToIdle_row (ht _ _ _ rfl rfl (by decide : 3 ≤ 5)) rfl
    _ = _ := runToIdle_vector _ hvec

end

theorem runToIdle_softwareInterrupt {b : Byte} (s : State) (ht : RowsOf .instr b (fun _ => impRow .softwareInterrupt)) :
    runToIdle 6 (s.enter (.busy (.start .instr b))) = .next (s.softwareInterrupt.enter .idle) :=
  calc runToIdle 6 (s.enter (.busy (.start .instr b)))
    _ = runToIdle 5 (s.fetch.enter (.busy { InFlight.start .instr b with t := 3 })) :=
        runToIdle_row (ht _ _ _ rfl rfl) rfl
    _ = _ := runToIdle_takeInterrupt (b54 := fun _ => 0b11) s.fetch
        (fun p k c hq hb hk => (ht p k c hq hb).trans (impRow_softwareInterrupt hk c))

theorem runToIdle_reset (s : State) (ht : RowsOf .reset 0 (fun p => sequenceRow p.pushBitsHw .reset)) :
    runToIdle 5 (s.enter (.busy { InFlight.start .reset 0 with t := 3 })) =
      .next ((s.resetRow.resetRow.resetRow.enterVector (vectorOf .reset)).enter .idle) := by
  have hvec : ∀ p k c, k.seq = .reset → k.ir = 0 → 6 ≤ k.t → k.row p c = vectorRow (vectorOf .reset) k := by
    intro p k c hq hb hk
    have h2345 : k.t ≠ 2 ∧ k.t ≠ 3 ∧ k.t ≠ 4 ∧ k.t ≠ 5 := by omega
    rw [ht p k c hq hb]
    simp [sequenceRow, h2345]
  calc runToIdle 5 (s.enter (.busy { InFlight.start .reset 0 with t := 3 }))
    _ = runToIdle 4 (s.resetRow.enter (.busy { InFlight.start .reset 0 with t := 4 })) :=
        runToIdle_row (ht _ _ _ rfl rfl) (perform_dummyRead (g := Cpu.decSp) rfl)
    _ = runToIdle 3 (s.resetRow.resetRow.enter (.busy { InFlight.start .reset 0 with t := 5 })) :=
        runToIdle_row (ht _ _ _ rfl rfl) (perform_dummyRead (g := Cpu.decSp) rfl)
    _ = runToIdle 2 (s.resetRow.resetRow.resetRow.enter (.busy { InFlight.start .reset 0 with t := 6 })) :=
        runToIdle_row (ht _ _ _ rfl rfl) (perform_dummyRead (g := Cpu.decSp) rfl)
    _ = _ := runToIdle_vector _ hvec

theorem sequenceRow_two {b54 : BitVec 2} {q : Seq} {k : InFlight} (h : k.t = 2) (c : Cpu) :
    sequenceRow b54 q k c = some (idleRow k c) := by
  cases q <;> simp [sequenceRow, h]

/-- Rows 2 to 7 of a hardware sequence, after its row 1. -/
theorem runToIdle_sequence {q : Seq} (hq : q ≠ .instr) (s : State) :
    runToIdle 6 ((s.dummyRead s.cpu.pc).enter (.busy (.start q 0))) = .next ((s.runSequence q).enter .idle) := by
  have ht : RowsOf q 0 (fun p => sequenceRow p.pushBitsHw q) := by
    rintro p k c rfl -
    exact row_of_sequence hq p c
  have hhead : runToIdle 6 ((s.dummyRead s.cpu.pc).enter (.busy (.start q 0))) =
      runToIdle 5 (s.sequenceHead.enter (.busy { InFlight.start q 0 with t := 3 })) := by
    have htwo : s.sequenceHead = (s.dummyRead s.cpu.pc).dummyRead (s.dummyRead s.cpu.pc).cpu.pc := by
      rw [State.dummyRead_cpu]
      rfl
    rw [htwo]
    exact runToIdle_row ((ht _ _ _ rfl rfl).trans (sequenceRow_two rfl _)) (perform_dummyRead (g := id) rfl)
  rw [hhead]
  by_cases hreset : q = .reset
  · subst hreset
    exact runToIdle_reset _ ht
  · rw [State.runSequence_eq hreset, ← State.sequenceHead_params s]
    exact runToIdle_takeInterrupt (b54 := Params.pushBitsHw) _
      (fun p k c hq hb hk => (ht p k c hq hb).trans (sequenceRow_of_ne_reset hreset _ hk c))

/-! ## The table of an instruction -/

/-- The memory operand a mode makes of the operand bytes, low byte first. -/
def memOfBytes : Mode → List Byte → Option Mem
  | .zp, [d] => some (.zp d)
  | .zpx, [d] => some (.zpx d)
  | .zpy, [d] => some (.zpy d)
  | .abs, [l, h] => some (.abs (word h l))
  | .abx, [l, h] => some (.abx (word h l))
  | .aby, [l, h] => some (.aby (word h l))
  | .izx, [d] => some (.izx d)
  | .izy, [d] => some (.izy d)
  | _, _ => none

theorem mem_eq_memOfBytes {i : Instr} (h : i.mnemonic.operation.accesses = true) :
    i.mem = memOfBytes i.mode i.operandBytes := by
  cases i <;> cases h <;> simp [Instr.mem, memOfBytes, Instr.mode, Instr.operandBytes]

theorem immediate_of_mem {i : Instr} {m : Mem} (h : i.mem = some m) : i.immediate = none := by
  cases i <;> cases h <;> rfl

theorem immediate_of_imm {i : Instr} {d : Byte} (h : i.mode = .imm) (hd : i.operandBytes = [d]) :
    i.immediate = some d := by
  cases i <;> cases h <;> cases hd <;> rfl

theorem mode_of_implicit {i : Instr} {n : Nat} (h : i.mnemonic.operation.implicitCycles = some n) : i.mode = .imp := by
  cases i <;> cases h <;> rfl

theorem eq_word_of_bytes {w : Addr} {l h : Byte} (hw : [lo w, hi w] = [l, h]) : w = word h l := by
  obtain ⟨rfl, htail⟩ := List.cons.inj hw
  obtain ⟨rfl, -⟩ := List.cons.inj htail
  exact (word_hi_lo w).symm

/-- An access with a memory operand means what its operation does with it. -/
theorem exec_of_mem {i : Instr} {m : Mem} (hacc : i.mnemonic.operation.accesses = true) (hm : i.mem = some m)
    (s : State) : exec i s = i.mnemonic.operation.meaning none (some m) i.operand s := by
  have hjump : i.mnemonic.operation ≠ .jump := fun h => by simp [h, Operation.accesses] at hacc
  rw [exec_eq_meaning_of_operation rfl hjump, immediate_of_mem hm, hm]

theorem rowsOf_instr {b : Byte} {mn : Mnemonic} {mode : Mode} (ho : optab b = some (mn, mode)) :
    RowsOf .instr b (fun _ => instrRow mn.operation mode) :=
  fun p _ c hq hb => row_of_instr hq ((congrArg optab hb).trans ho) p c

section
variable {i : Instr} {b : Byte} (ht : RowsOf .instr b (fun _ => instrRow i.mnemonic.operation i.mode)) (s : State)
  (hbytes : i.operandBytes = [s.fetchedByte 0, s.fetchedByte 1].take i.mode.operandBytes)
include ht hbytes

theorem runToIdle_access {m : Mem} (hacc : i.mnemonic.operation.accesses = true) (hm : i.mem = some m) :
    runToIdle 6 (s.enter (.busy (.start .instr b))) = settled (exec i (s.afterFetch (i.fetchedBytes - 1))) := by
  have hop := operation_commutes_enter i.mnemonic
  have hfits := operation_fits i
  have hcall : i.mnemonic.operation ≠ .call := fun h => by simp [h, Operation.accesses] at hacc
  have hmem := mem_eq_memOfBytes hacc
  rw [exec_of_mem hacc hm, fetchedBytes_of_not_call hcall]
  rw [hm, hbytes] at hmem
  rw [mode_of_mem hm] at ht hmem hfits ⊢
  cases m with
  | zp d => cases hmem; exact runToIdle_zp hop hacc s _ ht
  | zpx d =>
    cases hmem
    exact runToIdle_zpIndexed hop hacc s _ (idx := Cpu.x) (fun _ _ => rfl) (ea_eq_base rfl) (fun _ => rfl) ht
  | zpy d =>
    cases hmem
    exact runToIdle_zpIndexed hop hacc s _ (idx := Cpu.y) (fun _ _ => rfl) (ea_eq_base rfl) (fun _ => rfl) ht
  | abs w => cases hmem; exact runToIdle_abs hop hacc s _ ht
  | abx w =>
    cases hmem
    exact runToIdle_absIndexed hop hacc s _ (idx := Cpu.x) (fun _ _ => rfl) rfl rfl (fun _ => rfl) ht
  | aby w =>
    cases hmem
    exact runToIdle_absIndexed hop hacc s _ (idx := Cpu.y) (fun _ _ => rfl) rfl rfl (fun _ => rfl) ht
  | izx d =>
    cases hmem
    exact runToIdle_izx hop hacc s _ (by simpa using (Bool.and_eq_true_iff.1 hfits).2) ht
  | izy d =>
    cases hmem
    exact runToIdle_izy hop hacc s _ (by simpa using (Bool.and_eq_true_iff.1 hfits).2) ht

omit hbytes in
/-- An instruction without operand bytes: its rows are those of IMP. -/
theorem runToIdle_implicit {n : Nat} (h : i.mnemonic.operation.implicitCycles = some n) :
    runToIdle 6 (s.enter (.busy (.start .instr b))) = settled (exec i (s.afterFetch (i.fetchedBytes - 1))) := by
  have hcom := operation_commutes_enter i.mnemonic
  have hmode := mode_of_implicit h
  have hne : i.mnemonic.operation ≠ .jump ∧ i.mnemonic.operation ≠ .call := by
    constructor <;> intro he <;> rw [he] at h <;> cases h
  rw [exec_eq_meaning_of_operation rfl hne.1, fetchedBytes_of_not_call hne.2]
  rw [hmode] at ht ⊢
  generalize i.mnemonic.operation = op at h ht hcom
  cases op with
  | implied f => exact runToIdle_implied s hcom ht
  | push reg => exact runToIdle_push s hcom ht
  | pull f => exact runToIdle_pull s hcom ht
  | subroutineReturn => exact runToIdle_subroutineReturn s ht
  | softwareInterrupt => exact runToIdle_softwareInterrupt s ht
  | interruptReturn => exact runToIdle_interruptReturn s ht
  | _ => cases h

/-- Rows 2 to the last of an instruction do what it means. -/
theorem runToIdle_instr :
    runToIdle 6 (s.enter (.busy (.start .instr b))) = settled (exec i (s.afterFetch (i.fetchedBytes - 1))) := by
  have hcom := operation_commutes_enter i.mnemonic
  have hlen := fetchedBytes_of_not_call (i := i)
  cases hop : i.mnemonic.operation with
  | read f =>
    obtain ⟨d, himm, hx⟩ | ⟨m, -, hm, -⟩ := exec_of_read hop (s.afterFetch (i.fetchedBytes - 1))
    · have hmode := mode_of_immediate himm
      rw [hmode] at hbytes ht hlen
      rw [hop] at ht hcom hlen
      cases himm.symm.trans (immediate_of_imm hmode hbytes)
      rw [hx, hlen (by simp)]
      exact runToIdle_imm s hcom ht
    · exact runToIdle_access ht s hbytes (by rw [hop]; rfl) hm
  | write reg =>
    obtain ⟨m, hm, -⟩ := exec_of_write hop s
    exact runToIdle_access ht s hbytes (by rw [hop]; rfl) hm
  | modify new flags =>
    obtain ⟨m, hm, -⟩ | ⟨-, hacc, hx⟩ := exec_of_modify hop (s.afterFetch (i.fetchedBytes - 1))
    · exact runToIdle_access ht s hbytes (by rw [hop]; rfl) hm
    · rw [hop, hacc] at ht
      rw [hx, hlen (by simp [hop]), hacc]
      exact runToIdle_acc s ht
  | branch cond =>
    have hmode := mode_of_branch hop
    rw [hmode] at hbytes ht hlen
    rw [hop] at ht hlen
    have hd : BitVec.ofNat 8 i.operand = s.fetchValue := by
      rw [Instr.operand, hbytes]
      exact byte_ofNat_toNat _
    rw [exec_of_branch hop, hd, hlen (by simp)]
    exact runToIdle_branch s ht
  | jump =>
    obtain ⟨w, rfl⟩ | ⟨w, rfl⟩ := eq_jmp_of_jump hop
    · rw [eq_word_of_bytes hbytes]
      exact runToIdle_jump s ht
    · rw [eq_word_of_bytes hbytes]
      exact runToIdle_jumpIndirect s ht
  | call =>
    obtain ⟨w, rfl⟩ := eq_jsr_of_call hop
    have hlow : lo w = s.fetchValue := (List.cons.inj hbytes).1
    show _ = settled (.next (s.fetch.callSubroutine (lo w)))
    rw [hlow]
    exact runToIdle_call s ht
  | _ => exact runToIdle_implicit ht s (by rw [hop]; rfl)

end

/-! ## The step -/

/-- An instruction leaves the core between sequences, as it found it. -/
theorem settled_exec {s : State} (hf : s.cpu.fault = none) (hc : s.cpu.control = .idle) (i : Instr) :
    settled (exec i s) = exec i s := by
  obtain ⟨t, ht, -⟩ := cycleCounts i s
  obtain ⟨-, -, -, hfault, hcontrol, -⟩ := instructionsLeaveRequestsAlone i s t ht
  rw [ht, settled, State.enter_eq_self (hfault.trans hf) (hcontrol.trans hc)]

/-- What a fetch hands on is in the table at the opcode byte, with the bytes that were fetched. -/
theorem fetchInstr_of_form {s : State} {f : Form} (hf : opcodeForm (s.fetchedByte 0) = some f) :
    ∃ i, s.fetchInstr = .ready i (s.afterFetch i.fetchedBytes) ∧
      optab (s.fetchedByte 0) = some (i.mnemonic, i.mode) ∧
      i.operandBytes = [s.fetchedByte 1, s.fetchedByte 2].take i.mode.operandBytes := by
  obtain ⟨i, hi, ops, hentry, hops⟩ : ∃ i, s.fetchInstr = .ready i (s.afterFetch i.fetchedBytes) ∧
      ∃ ops, EntryOf (s.fetchedByte 0) i ops ∧ ops = [s.fetchedByte 1, s.fetchedByte 2].take ops.length := by
    cases f with
    | one i => exact ⟨i, by rw [fetchInstr_one hf, (opcodeForm_one hf).2], _, (opcodeForm_one hf).1, rfl⟩
    | two f => exact ⟨_, by rw [fetchInstr_two hf, (opcodeForm_two hf _).2], _, (opcodeForm_two hf _).1, rfl⟩
    | three f =>
      exact ⟨_, by rw [fetchInstr_three hf, (opcodeForm_three hf _).2], _, (opcodeForm_three hf _).1, by simp⟩
    | call f =>
      obtain ⟨rfl, hsays⟩ := opcodeForm_says hf
      exact ⟨_, by rw [fetchInstr_call hf, (hsays _).2], _, (hsays _).1, by simp⟩
  refine ⟨i, hi, hentry.optab, ?_⟩
  rw [hentry.operandBytes]
  have hlen : ops.length = i.mode.operandBytes := by
    have h := hentry.length
    rw [Mode.length] at h
    omega
  rw [← hlen]
  exact hops

theorem State.setControl_eq_enter {s : State} (hf : s.cpu.fault = none) (x : Control) :
    s.mapCpu (Cpu.setControl x) = s.enter x := by
  show { s with cpu := { s.cpu with control := x } } = { s with cpu := { s.cpu with control := x, fault := none } }
  rw [← hf]

/-- Row 1 leads into row 2. -/
theorem performNextInstruction_of_row {s t : State} {k : InFlight} (h : cycle s = .next (t.enter (.busy k))) :
    performNextInstruction s = runToIdle 6 (t.enter (.busy k)) := runToIdle_next h

theorem runSequence_fault (q : Seq) (s : State) : (s.runSequence q).cpu.fault = s.cpu.fault := by
  by_cases hq : q = .reset
  · subst hq
    obtain ⟨l, h, -, -, hcpu⟩ := State.runReset_cpu s
    rw [hcpu]
  · rw [State.runSequence_eq hq]
    show s.sequenceHead.cpu.fault = s.cpu.fault
    rw [State.sequenceHead_cpu]

theorem performNextInstruction_of_selected {s : State} {q : Seq} (hf : s.cpu.fault = none)
    (hc : s.cpu.control = .idle) (hq : s.cpu.selected = some q) :
    performNextInstruction s = .next (s.afterCheck.runSequence q) := by
  have hcycle := cycle_of_selected hf hc hq
  rw [State.startSequence, State.setControl_eq_enter (by simp [hf])] at hcycle
  rw [performNextInstruction_of_row hcycle, runToIdle_sequence (selected_ne_instr hq),
    State.enter_eq_self (by simp [runSequence_fault, hf]) (by simp [runSequence_control, hc])]

theorem startInstruction_of_illegal {s : State} (h : optab s.fetchValue = none) :
    s.startInstruction = .fault (.illegalOpcode s.fetchValue (s.fetch.withFault s.fetchValue)) := by
  unfold State.startInstruction
  rw [h]

theorem startInstruction_of_entry {s : State} {e : Mnemonic × Mode} (hf : s.cpu.fault = none)
    (h : optab s.fetchValue = some e) :
    s.startInstruction = .next (s.fetch.enter (.busy (.start .instr s.fetchValue))) := by
  unfold State.startInstruction
  rw [h, ← State.setControl_eq_enter (s := s.fetch) hf]

theorem fetchedBytes_eq_succ (i : Instr) : i.fetchedBytes = i.fetchedBytes - 1 + 1 := by
  unfold Instr.fetchedBytes
  split
  · rfl
  · rw [Mode.length]
    omega

/-- From a state that runs an instruction, the rows do what it means; `u` is the state after the interrupt check. -/
theorem performNextInstruction_of_fetch {s u : State} (hf : u.cpu.fault = none) (hc : u.cpu.control = .idle)
    (h : cycle s = u.startInstruction) : performNextInstruction s = u.fetchInstr.run := by
  cases hform : opcodeForm (u.fetchedByte 0) with
  | none =>
    have ho : optab u.fetchValue = none := optab_eq_none_iff.2 hform
    rw [startInstruction_of_illegal ho] at h
    rw [fetchInstr_illegal hform]
    simp only [performNextInstruction, runToIdle, h]
    rfl
  | some f =>
    obtain ⟨i, hi, ho, hbytes⟩ := fetchInstr_of_form hform
    have hrest : u.afterFetch i.fetchedBytes = u.fetch.afterFetch (i.fetchedBytes - 1) := by
      rw [fetchedBytes_eq_succ i, State.afterFetch_succ, Nat.add_sub_cancel]
    have hcpu := State.afterFetch_cpu (i.fetchedBytes - 1) u.fetch
    have hstart : cycle s = .next (u.fetch.enter (.busy (.start .instr u.fetchValue))) :=
      h.trans (startInstruction_of_entry hf ho)
    rw [hi, Fetched.run, hrest, performNextInstruction_of_row hstart]
    exact (runToIdle_instr (rowsOf_instr ho) u.fetch hbytes).trans
      (settled_exec (by rw [hcpu]; exact hf) (by rw [hcpu]; exact hc) i)

/-- Settles O14: by the cases of row 1; the rows from 2 on are `runToIdle_sequence` and `runToIdle_instr`. -/
theorem cyclesRefineTheStep : Obligations.CyclesRefineTheStep := by
  intro s hc
  cases hf : s.cpu.fault with
  | some b =>
    rw [step_of_fault hf]
    simp only [performNextInstruction, runToIdle, cycle_of_fault hf]
  | none =>
    cases hq : s.cpu.selected with
    | some q => rw [step_of_selected hf hc hq, performNextInstruction_of_selected hf hc hq]
    | none => rw [step_of_running ⟨hf, hc, hq⟩, performNextInstruction_of_fetch
        (by simp [hf]) (by simp [hc]) (cycle_of_running ⟨hf, hc, hq⟩)]

end Sys2Proof.Machine
end

section
/-! The load, store and transfer family (41_load_store_transfer.md): result, flags and frame. -/

namespace Sys2Proof.Machine

/-! ## The frames of the read class and of the one-byte register instructions -/

/-- A read-class instruction applies its operation to the operand byte, and writes neither memory nor parameters. -/
theorem exec_read_frame {i : Instr} {f : Byte → Cpu → Cpu} (hop : i.mnemonic.operation = .read f) (s : State) :
    ∃ m t, i.operandByte s = some m ∧ exec i s = .next t ∧ t.cpu = f m s.cpu ∧
      s.memoryKept t ∧ t.params = s.params := by
  obtain ⟨m, t, hm, ht, hcpu, n, hreads⟩ := exec_read_spec hop s
  exact ⟨m, t, hm, ht, hcpu, hreads.memoryKept, hreads.params⟩

/-- An implied instruction applies its operation to the core, and writes neither memory nor parameters. -/
theorem exec_implied_frame {i : Instr} {f : Cpu → Cpu} (hop : i.mnemonic.operation = .implied f) (s : State) :
    ∃ t, exec i s = .next t ∧ t.cpu = f s.cpu ∧ s.memoryKept t ∧ t.params = s.params := by
  obtain ⟨t, ht, hcpu, hreads⟩ := impliedClass_spec f s
  exact ⟨t, (exec_of_implied hop s).trans ht, hcpu, hreads.memoryKept, hreads.params⟩

/-- A write-class instruction stores its register's byte at the effective address, and nothing else (R173 to R175). -/
theorem exec_write_frame {i : Instr} {reg : Cpu → Byte} (hop : i.mnemonic.operation = .write reg) {s : State}
    (hw : s.con.wf = true) :
    ∃ m t, i.mem = some m ∧ exec i s = .next t ∧ t.cpu = s.cpu ∧
      s.storedOnly (s.ea m) (reg s.cpu) t ∧ t.params = s.params := by
  obtain ⟨m, hm, hx⟩ := exec_of_write hop s
  exact ⟨m, _, hm, hx, State.operandWrite_cpu m _ s, State.operandWrite_storedOnly m _ s hw,
    State.operandWrite_params m _ s⟩

/-! ## Loads, stores, transfers -/

/-- Settles O26: the three mnemonics are the read class with `Cpu.lda`, `Cpu.ldx`, `Cpu.ldy`. -/
theorem loadResultAndFlags : Obligations.LoadResultAndFlags := by
  intro i s load h
  obtain ⟨hmn, rfl⟩ | ⟨hmn, rfl⟩ | ⟨hmn, rfl⟩ := h
  · exact exec_read_frame (f := Cpu.lda) (congrArg Mnemonic.operation hmn) s
  · exact exec_read_frame (f := Cpu.ldx) (congrArg Mnemonic.operation hmn) s
  · exact exec_read_frame (f := Cpu.ldy) (congrArg Mnemonic.operation hmn) s

/-- Settles O27: the three mnemonics are the write class with the registers A, X, Y. -/
theorem storeWritesTheRegister : Obligations.StoreWritesTheRegister := by
  intro i s v hw h
  obtain ⟨hmn, rfl⟩ | ⟨hmn, rfl⟩ | ⟨hmn, rfl⟩ := h
  · exact exec_write_frame (reg := Cpu.a) (congrArg Mnemonic.operation hmn) hw
  · exact exec_write_frame (reg := Cpu.x) (congrArg Mnemonic.operation hmn) hw
  · exact exec_write_frame (reg := Cpu.y) (congrArg Mnemonic.operation hmn) hw

/-- Settles O28: each transfer is the implied class with its own operation, and only that of TXS keeps the status. -/
theorem transferResultAndFlags : Obligations.TransferResultAndFlags := by
  intro s i c v h
  obtain ⟨rfl, rfl, rfl⟩ | ⟨rfl, rfl, rfl⟩ | ⟨rfl, rfl, rfl⟩ | ⟨rfl, rfl, rfl⟩ | ⟨rfl, rfl, rfl⟩ | ⟨rfl, rfl, rfl⟩ := h
  · exact exec_implied_frame (f := Cpu.tax) rfl s
  · exact exec_implied_frame (f := Cpu.tay) rfl s
  · exact exec_implied_frame (f := Cpu.txa) rfl s
  · exact exec_implied_frame (f := Cpu.tya) rfl s
  · exact exec_implied_frame (f := Cpu.tsx) rfl s
  · exact exec_implied_frame (f := Cpu.txs) rfl s

end Sys2Proof.Machine
end

section
/-! The arithmetic, logic and compare family (42_arithmetic_logic_compare.md): the byte arithmetic of R201, R202 and
R210, then result, flags and frame of each mnemonic. -/

namespace Sys2Proof.Machine

/-! ## The complement of a byte -/

theorem complement_toNat (m : Byte) : (m ^^^ 0xFF).toNat = 255 - m.toNat := by
  have h : m ^^^ 0xFF = ~~~m := BitVec.xor_allOnes
  rw [h, BitVec.toNat_not]

theorem complement_toInt (m : Byte) : (m ^^^ 0xFF).toInt = -1 - m.toInt := by
  have hm := m.isLt
  rw [BitVec.toInt_eq_toNat_cond, BitVec.toInt_eq_toNat_cond, complement_toNat]
  omega

/-! ## Subtraction is addition of the complement (R202, R210) -/

/-- Borrow and carry are complementary, so the two unsigned results are 256 apart. -/
theorem sbcUnsigned_eq_adcUnsigned (a m : Byte) (c : Bool) :
    sbcUnsigned a m c = adcUnsigned a (m ^^^ 0xFF) c - 256 := by
  have hm := m.isLt
  rw [sbcUnsigned, adcUnsigned, complement_toNat]
  cases c <;> simp only [Bool.not_true, Bool.not_false, Bool.toNat_true, Bool.toNat_false] <;> omega

theorem sbcSigned_eq_adcSigned (a m : Byte) (c : Bool) : sbcSigned a m c = adcSigned a (m ^^^ 0xFF) c := by
  rw [sbcSigned, adcSigned, complement_toInt]
  cases c <;> simp only [Bool.not_true, Bool.not_false, Bool.toNat_true, Bool.toNat_false] <;> omega

theorem sbcResult_eq_adcResult (a m : Byte) (c : Bool) : sbcResult a m c = adcResult a (m ^^^ 0xFF) c := by
  refine BitVec.eq_of_toNat_eq ?_
  rw [sbcResult, adcResult, sbcUnsigned_eq_adcUnsigned, BitVec.toNat_ofInt, BitVec.toNat_ofNat]
  omega

/-- The carry out of the addition is the absence of a borrow. -/
theorem sbcStatus_eq_adcStatus (a m : Byte) (p : Status) : sbcStatus a m p = adcStatus a (m ^^^ 0xFF) p := by
  have hcarry : 0 ≤ sbcUnsigned a m p.c ↔ 255 < adcUnsigned a (m ^^^ 0xFF) p.c := by
    rw [sbcUnsigned_eq_adcUnsigned]
    omega
  simp only [sbcStatus, adcStatus, hcarry, sbcSigned_eq_adcSigned, sbcResult_eq_adcResult]

/-! ## The borrow written out -/

theorem borrow_toNat (c : Bool) : (!c).toNat = if c then 0 else 1 := by cases c <;> rfl

theorem sbcResult_eq_sub (a m : Byte) (c : Bool) : sbcResult a m c = a - m - (if c then 0 else 1) := by
  rw [sbcResult, sbcUnsigned, Int.sub_eq_add_neg, Int.sub_eq_add_neg, BitVec.ofInt_add, BitVec.ofInt_add,
    BitVec.ofInt_neg, BitVec.ofInt_neg]
  simp only [BitVec.ofInt_natCast, BitVec.ofNat_toNat, BitVec.setWidth_eq, ← BitVec.sub_eq_add_neg]
  cases c <;> rfl

theorem sbcUnsigned_nonneg_iff (a m : Byte) (c : Bool) :
    0 ≤ sbcUnsigned a m c ↔ m.toNat + (if c then 0 else 1) ≤ a.toNat := by
  rw [sbcUnsigned, borrow_toNat]
  omega

theorem sbcSigned_eq_sub (a m : Byte) (c : Bool) : sbcSigned a m c = a.toInt - m.toInt - (if c then 0 else 1) := by
  cases c <;> rfl

theorem outsideSigned_eq_decide (sg : Int) : outsideSigned sg = decide (sg < -128 ∨ 127 < sg) :=
  (Bool.decide_or _ _).symm

/-! ## Overflow by the sign bits (R210) -/

theorem signBit_eq_decide (b : Byte) : b.getLsbD 7 = decide (128 ≤ b.toNat) :=
  (BitVec.msb_eq_getLsbD_last b).symm.trans (BitVec.msb_eq_decide b)

/-- The bits where two bytes differ have bit 7 when the signs differ. -/
theorem signBit_xor_iff (b r : Byte) : (b ^^^ r).getLsbD 7 = true ↔ ¬ (128 ≤ b.toNat ↔ 128 ≤ r.toNat) := by
  rw [BitVec.getLsbD_xor, signBit_eq_decide, signBit_eq_decide, Bool.xor_iff_ne, ne_eq, decide_eq_decide]

/-- The sum overflows when the result has neither operand's sign. -/
theorem adcStatus_v_eq_signBits (a m : Byte) (p : Status) :
    (adcStatus a m p).v = ((a ^^^ adcResult a m p.c) &&& (m ^^^ adcResult a m p.c)).getLsbD 7 := by
  have ha := a.isLt
  have hm := m.isLt
  have hc := p.c.toNat_le
  have hr : (adcResult a m p.c).toNat = (a.toNat + m.toNat + p.c.toNat) % 256 := BitVec.toNat_ofNat _ _
  have hv : (adcStatus a m p).v = outsideSigned (a.toInt + m.toInt + p.c.toNat) := rfl
  rw [hv, outsideSigned_eq_decide, Bool.eq_iff_iff, decide_eq_true_iff, BitVec.getLsbD_and, Bool.and_eq_true,
    signBit_xor_iff, signBit_xor_iff, hr, BitVec.toInt_eq_toNat_cond, BitVec.toInt_eq_toNat_cond]
  omega

/-! ## The read class, with its cycles -/

/-- The frame of a read-class instruction with the cycles of the table (R150, R151). -/
theorem exec_read_table {i : Instr} {f : Byte → Cpu → Cpu} (hop : i.mnemonic.operation = .read f) (s : State) :
    ∃ m t, i.operandByte s = some m ∧ exec i s = .next t ∧ t.cpu = f m s.cpu ∧ s.memoryKept t ∧ t.params = s.params ∧
      t.con.clock + i.fetchedBytes = s.con.clock + i.baseCycles + i.extraCycles s := by
  obtain ⟨m, t, hm, ht, hcpu, hmem, hparams⟩ := exec_read_frame hop s
  obtain ⟨u, hu, hclock⟩ := cycleCounts i s
  cases ht.symm.trans hu
  exact ⟨m, t, hm, ht, hcpu, hmem, hparams, hclock⟩

/-! ## Add and subtract -/

/-- Settles O20: ADC is the read class with `Cpu.adc`, whose V is the test of `outsideSigned`. -/
theorem adcResultAndFlags : Obligations.AdcResultAndFlags := by
  intro i s hmn
  obtain ⟨m, t, hm, ht, hcpu, hrest⟩ := exec_read_table (f := Cpu.adc) (congrArg Mnemonic.operation hmn) s
  refine ⟨m, t, hm, ht, ?_, hrest⟩
  rw [hcpu, ← outsideSigned_eq_decide]
  rfl

/-- Settles O21: SBC is the read class with `Cpu.sbc`; the borrow is written out. -/
theorem sbcResultAndFlags : Obligations.SbcResultAndFlags := by
  intro i s hmn
  obtain ⟨m, t, hm, ht, hcpu, hrest⟩ := exec_read_table (f := Cpu.sbc) (congrArg Mnemonic.operation hmn) s
  refine ⟨m, t, hm, ht, ?_, hrest⟩
  simp only [hcpu, Cpu.sbc, sbcStatus, sbcResult_eq_sub, sbcUnsigned_nonneg_iff, sbcSigned_eq_sub,
    outsideSigned_eq_decide]

/-- Settles O22: overflow by the sign bits, subtraction as addition of the complement, and no borrow with C set. -/
theorem addSubtractIdentities : Obligations.AddSubtractIdentities := by
  intro a m p
  refine ⟨adcStatus_v_eq_signBits a m p, sbcResult_eq_adcResult a m p.c, sbcStatus_eq_adcStatus a m p,
    fun hc => ⟨?_, ?_⟩, rfl⟩
  · rw [sbcResult_eq_sub, hc]
    exact BitVec.sub_zero _
  · have hborrow := sbcUnsigned_nonneg_iff a m p.c
    simpa [sbcStatus, hc] using hborrow

/-! ## Logic, compare, bit test -/

/-- Settles O23: the three mnemonics are the read class with `Cpu.and`, `Cpu.ora`, `Cpu.eor`. -/
theorem logicResultAndFlags : Obligations.LogicResultAndFlags := by
  intro i s r h
  obtain ⟨hmn, rfl⟩ | ⟨hmn, rfl⟩ | ⟨hmn, rfl⟩ := h
  · exact exec_read_frame (f := Cpu.and) (congrArg Mnemonic.operation hmn) s
  · exact exec_read_frame (f := Cpu.ora) (congrArg Mnemonic.operation hmn) s
  · exact exec_read_frame (f := Cpu.eor) (congrArg Mnemonic.operation hmn) s

/-- Settles O24: the three mnemonics are the read class with `compareStatus` of A, X, Y. -/
theorem compareFlags : Obligations.CompareFlags := by
  intro i s r h
  obtain ⟨hmn, rfl⟩ | ⟨hmn, rfl⟩ | ⟨hmn, rfl⟩ := h
  · exact exec_read_frame (f := Cpu.cmp) (congrArg Mnemonic.operation hmn) s
  · exact exec_read_frame (f := Cpu.cpx) (congrArg Mnemonic.operation hmn) s
  · exact exec_read_frame (f := Cpu.cpy) (congrArg Mnemonic.operation hmn) s

/-- Settles O25: BIT is the read class with `bitStatus`. -/
theorem bitTestFlags : Obligations.BitTestFlags := by
  intro i s hmn
  exact exec_read_frame (f := Cpu.bit) (congrArg Mnemonic.operation hmn) s

end Sys2Proof.Machine
end

section
/-! The shift, rotate, increment and decrement family (43_shift_rotate_incdec.md): the byte arithmetic of R230 to R233,
then result, flags and frame of the modify class, of the accumulator forms and of the index steps. -/

namespace Sys2Proof.Machine

/-! ## The shifted byte as arithmetic (R230 to R233) -/

theorem aslByte_eq_add (v : Byte) : aslByte v = v + v :=
  (BitVec.shiftLeft_eq_mul_twoPow v 1).trans BitVec.mul_two

theorem lsrByte_toNat (v : Byte) : (lsrByte v).toNat = v.toNat / 2 := by
  rw [lsrByte, BitVec.toNat_ushiftRight, Nat.shiftRight_one]

theorem lsrByte_eq_half (v : Byte) : lsrByte v = BitVec.ofNat 8 (v.toNat / 2) := by
  rw [← lsrByte_toNat, byte_ofNat_toNat]

/-- The left shift frees bit 0, where the carry enters. -/
theorem aslByte_and_bit (v : Byte) (c : Bool) : aslByte v &&& bit c = 0 := by
  ext i hi
  cases i with
  | zero => simp [aslByte]
  | succ i => cases c <;> simp [bit]

/-- The right shift frees bit 7, where the carry enters. -/
theorem lsrByte_and_bit (v : Byte) (c : Bool) : lsrByte v &&& (bit c <<< 7) = 0 := by
  ext i hi
  obtain h | rfl : i < 7 ∨ i = 7 := by omega
  · simp [BitVec.getElem_shiftLeft, h]
  · simp [lsrByte]

theorem rolByte_eq_add (v : Byte) (c : Bool) : rolByte v c = v + v + (if c then 1 else 0) :=
  calc rolByte v c = aslByte v + bit c := (BitVec.add_eq_or_of_and_eq_zero _ _ (aslByte_and_bit v c)).symm
    _ = v + v + (if c then 1 else 0) := congrArg (· + bit c) (aslByte_eq_add v)

theorem rorByte_eq_half (v : Byte) (c : Bool) :
    rorByte v c = BitVec.ofNat 8 (v.toNat / 2 + (if c then 128 else 0)) :=
  calc rorByte v c = lsrByte v + bit c <<< 7 :=
        (BitVec.add_eq_or_of_and_eq_zero _ _ (lsrByte_and_bit v c)).symm
    _ = BitVec.ofNat 8 (v.toNat / 2) + BitVec.ofNat 8 (if c then 128 else 0) := by
        rw [lsrByte_eq_half]
        cases c <;> rfl
    _ = BitVec.ofNat 8 (v.toNat / 2 + (if c then 128 else 0)) := (BitVec.ofNat_add _ _).symm

/-! ## What the modify-class operations compute -/

/-- From the status `p`, an operation of the modify class makes of a byte `v` the byte `byte v`, with Z and N from
it and the carry `carry v`. -/
structure Modifies (p : Status) (new : Byte → Status → Byte) (flags : Byte → Status → Status)
    (byte : Byte → Byte) (carry : Byte → Bool) : Prop where
  new_eq : ∀ v, new v p = byte v
  flags_eq : ∀ v, flags v p = { p.setNZ (new v p) with c := carry v }

theorem asl_modifies (p : Status) :
    Modifies p aslNew aslFlags (fun v => v + v) (fun v => v.getLsbD 7) :=
  ⟨aslByte_eq_add, fun _ => rfl⟩

theorem lsr_modifies (p : Status) :
    Modifies p lsrNew lsrFlags (fun v => BitVec.ofNat 8 (v.toNat / 2)) (fun v => v.getLsbD 0) :=
  ⟨lsrByte_eq_half, fun _ => rfl⟩

theorem rol_modifies (p : Status) :
    Modifies p rolNew rolFlags (fun v => v + v + (if p.c then 1 else 0)) (fun v => v.getLsbD 7) :=
  ⟨fun v => rolByte_eq_add v p.c, fun _ => rfl⟩

theorem ror_modifies (p : Status) :
    Modifies p rorNew rorFlags (fun v => BitVec.ofNat 8 (v.toNat / 2 + (if p.c then 128 else 0)))
      (fun v => v.getLsbD 0) :=
  ⟨fun v => rorByte_eq_half v p.c, fun _ => rfl⟩

theorem inc_modifies (p : Status) : Modifies p incNew incFlags (fun v => v + 1) (fun _ => p.c) :=
  ⟨fun _ => rfl, fun _ => rfl⟩

theorem dec_modifies (p : Status) : Modifies p decNew decFlags (fun v => v - 1) (fun _ => p.c) :=
  ⟨fun _ => rfl, fun _ => rfl⟩

/-- The flags written out, from the byte the operation makes. -/
theorem Modifies.flags_written {p : Status} {new : Byte → Status → Byte} {flags : Byte → Status → Status}
    {byte : Byte → Byte} {carry : Byte → Bool} (h : Modifies p new flags byte carry) (v : Byte) :
    flags v p = { p with c := carry v, z := byte v == 0, n := (byte v).getLsbD 7 } := by
  rw [h.flags_eq, h.new_eq]
  rfl

/-! ## The frames of the modify class -/

section
variable {i : Instr} {s : State} {new : Byte → Status → Byte} {flags : Byte → Status → Status} {byte : Byte → Byte}
  {carry : Byte → Bool}

/-- A memory form stores the new byte at the effective address and writes the status, and nothing else (R131). -/
theorem exec_modify_frame (h : Modifies s.cpu.p new flags byte carry)
    (hop : i.mnemonic.operation = .modify new flags) {m : Mem} (hm : i.mem = some m) (hw : s.con.wf = true) :
    ∃ old t, exec i s = .next t ∧ old = s.oldByte m ∧
      (∀ v, s.con.peek (s.ea m) = some v → old = v) ∧
      t.cpu = { s.cpu with p := { s.cpu.p with
        c := carry old, z := byte old == 0, n := (byte old).getLsbD 7 } } ∧
      s.storedOnly (s.ea m) (byte old) t ∧ t.params = s.params := by
  have hacc : i.mnemonic.operation.accesses = true := by rw [hop]; rfl
  have hx : exec i s = modifyClass new flags m s := by rw [exec_of_mem hacc hm, hop]; rfl
  obtain ⟨t, ht, hcpu, hcon, hparams⟩ := modifyClass_spec new flags m s
  have hstored : s.storedOnly (s.ea m) (new (s.oldByte m) s.cpu.p) t := by
    rw [State.storedOnly, hcon]
    exact State.operandModify_storedOnly m _ s hw
  rw [h.flags_written] at hcpu
  rw [h.new_eq] at hstored
  exact ⟨s.oldByte m, t, hx.trans ht, rfl, fun _ => State.oldByte_of_peek, hcpu, hstored, hparams⟩

/-- An accumulator form writes A and the status, and neither memory nor parameters. -/
theorem exec_accumulator_frame (h : Modifies s.cpu.p new flags byte carry)
    (hx : exec i s = accumulatorClass new flags s) :
    ∃ t, exec i s = .next t ∧
      t.cpu = { s.cpu with a := byte s.cpu.a, p := { s.cpu.p with
        c := carry s.cpu.a, z := byte s.cpu.a == 0, n := (byte s.cpu.a).getLsbD 7 } } ∧
      s.memoryKept t ∧ t.params = s.params := by
  obtain ⟨t, ht, hcpu, hreads⟩ := accumulatorClass_spec new flags s
  rw [h.new_eq, h.flags_written] at hcpu
  exact ⟨t, hx.trans ht, hcpu, hreads.memoryKept, hreads.params⟩

end

/-! ## Shifts, increments, decrements -/

/-- Settles O29: the six mnemonics are the modify class, each with the byte and the carry of its `_modifies` lemma. -/
theorem modifyResultAndFlags : Obligations.ModifyResultAndFlags := by
  intro i s m new carry hw hm h
  obtain ⟨hmn, rfl, rfl⟩ | ⟨hmn, rfl, rfl⟩ | ⟨hmn, rfl, rfl⟩ | ⟨hmn, rfl, rfl⟩ | ⟨hmn, rfl, rfl⟩ | ⟨hmn, rfl, rfl⟩ := h
  · exact exec_modify_frame (asl_modifies _) (congrArg Mnemonic.operation hmn) hm hw
  · exact exec_modify_frame (lsr_modifies _) (congrArg Mnemonic.operation hmn) hm hw
  · exact exec_modify_frame (rol_modifies _) (congrArg Mnemonic.operation hmn) hm hw
  · exact exec_modify_frame (ror_modifies _) (congrArg Mnemonic.operation hmn) hm hw
  · exact exec_modify_frame (inc_modifies _) (congrArg Mnemonic.operation hmn) hm hw
  · exact exec_modify_frame (dec_modifies _) (congrArg Mnemonic.operation hmn) hm hw

/-- Settles O30: the accumulator forms compute what the memory forms do, on A. -/
theorem accumulatorShiftResultAndFlags : Obligations.AccumulatorShiftResultAndFlags := by
  intro i s r carry h
  obtain ⟨rfl, rfl, rfl⟩ | ⟨rfl, rfl, rfl⟩ | ⟨rfl, rfl, rfl⟩ | ⟨rfl, rfl, rfl⟩ := h
  · exact exec_accumulator_frame (asl_modifies _) rfl
  · exact exec_accumulator_frame (lsr_modifies _) rfl
  · exact exec_accumulator_frame (rol_modifies _) rfl
  · exact exec_accumulator_frame (ror_modifies _) rfl

/-- Settles O31: each of the four is the implied class with its own operation. -/
theorem indexStepResultAndFlags : Obligations.IndexStepResultAndFlags := by
  intro s i c r h
  obtain ⟨rfl, rfl, rfl⟩ | ⟨rfl, rfl, rfl⟩ | ⟨rfl, rfl, rfl⟩ | ⟨rfl, rfl, rfl⟩ := h
  · exact exec_implied_frame (f := Cpu.inx) rfl s
  · exact exec_implied_frame (f := Cpu.iny) rfl s
  · exact exec_implied_frame (f := Cpu.dex) rfl s
  · exact exec_implied_frame (f := Cpu.dey) rfl s

end Sys2Proof.Machine
end

section
/-! The branch, jump and subroutine family (44_branch_jump_subroutine.md): the branch target as signed arithmetic, the
return address on the stack, then targets and frames. -/

namespace Sys2Proof.Machine

/-! ## Branches (R260) -/

/-- The target as the sum of PC and the signed displacement, modulo 65536. -/
theorem branchTarget_eq_ofInt (pcn : Addr) (d : Byte) :
    branchTarget pcn d = BitVec.ofInt 16 (pcn.toNat + d.toInt) := by
  rw [BitVec.ofInt_add, BitVec.ofInt_natCast, BitVec.ofNat_toNat, BitVec.setWidth_eq]
  rfl

/-- A branch sets PC by its condition, and writes neither memory nor parameters. -/
theorem branchClass_frame (cond : Status → Bool) (d : Byte) (s : State) :
    ∃ t, branchClass cond d s = .next t ∧
      t.cpu = { s.cpu with
        pc := if cond s.cpu.p then BitVec.ofInt 16 (s.cpu.pc.toNat + d.toInt) else s.cpu.pc } ∧
      s.memoryKept t ∧ t.params = s.params := by
  obtain ⟨t, ht, hcpu, hreads⟩ := branchClass_spec cond d s
  rw [branchTarget_eq_ofInt] at hcpu
  exact ⟨t, ht, hcpu, hreads.memoryKept, hreads.params⟩

/-- Settles O32: the eight mnemonics are the branch class with their conditions. -/
theorem branchTargetAndFrame : Obligations.BranchTargetAndFrame := by
  intro s d i cond h
  obtain ⟨rfl, rfl⟩ | ⟨rfl, rfl⟩ | ⟨rfl, rfl⟩ | ⟨rfl, rfl⟩ | ⟨rfl, rfl⟩ | ⟨rfl, rfl⟩ | ⟨rfl, rfl⟩ | ⟨rfl, rfl⟩ := h
  · exact branchClass_frame condPl d s
  · exact branchClass_frame condMi d s
  · exact branchClass_frame condVc d s
  · exact branchClass_frame condVs d s
  · exact branchClass_frame condCc d s
  · exact branchClass_frame condCs d s
  · exact branchClass_frame condNe d s
  · exact branchClass_frame condEq d s

/-! ## Jumps (R269, R270) -/

/-- The meaning of JMP absolute (R269). -/
theorem exec_jmpAbs (w : Addr) (s : State) : exec (.jmpAbs w) s = .next (s.setPc w) := rfl

/-- The meaning of JMP indirect (R270). -/
theorem exec_jmpInd (w : Addr) (s : State) : exec (.jmpInd w) s = .next (s.jumpIndirect w) := rfl

/-- Settles O33: JMP absolute reaches no bus; the first pointer read of JMP indirect leaves every stored byte. -/
theorem jumpTargets : Obligations.JumpTargets := by
  intro s w
  have hreads := State.jumpIndirect_reads w s
  refine ⟨⟨_, exec_jmpAbs w s, rfl, rfl, rfl⟩, _, exec_jmpInd w s, State.jumpIndirect_cpu w s, ?_, ?_,
    hreads.memoryKept, hreads.params⟩
  · exact fun v hv => State.value_of_peek hv
  · exact fun v hv => State.value_of_peek (((State.read_reads w s).memoryKept _).trans hv)

/-! ## Subroutines (R271, R272) -/

/-- The meaning of JSR (R271). -/
theorem exec_jsr (w : Addr) (s : State) : exec (.jsr w) s = .next (s.callSubroutine (lo w)) := rfl

/-- The meaning of RTS (R272). -/
theorem exec_rts (s : State) : exec .rts s = .next s.returnFromSubroutine := rfl

/-- Settles O34, by what the shared call operation does to the core and the stack. -/
theorem jsrPushesAndJumps : Obligations.JsrPushesAndJumps := by
  intro s w hw
  obtain ⟨hcpu, hpushed, hthird⟩ := State.callSubroutine_spec (lo w) s hw
  exact ⟨_, exec_jsr w s, hcpu, hpushed, hthird, State.callSubroutine_params (lo w) s⟩

/-- Settles O35, by what the shared return operation does to the core; it only reads. -/
theorem rtsPullsAndReturns : Obligations.RtsPullsAndReturns := by
  intro s
  have hreads := State.returnFromSubroutine_reads s
  exact ⟨_, exec_rts s, State.returnFromSubroutine_cpu s, hreads.memoryKept, hreads.params⟩

/-- The stack page lies in RAM. -/
theorem State.stackByte_of_ram {s t : State} (h : t.con.ram = s.con.ram) (sp : Byte) :
    t.stackByte sp = s.stackByte sp :=
  congrArg (fun ram => ram.read (stackAddr sp).toNat) h

/-- The two bytes of a return address, where a pull finds them (20_memory.md R72). -/
theorem State.pushedOnly.returnAddress {s t : State} {sp h l : Byte} (hp : s.pushedOnly sp [h, l] t) :
    t.stackByte (sp - 2 + 1) = l ∧ t.stackByte (sp - 2 + 2) = h := by
  obtain ⟨hbytes, -, -⟩ := hp
  have hlow : sp - 2 + 1 = sp - BitVec.ofNat 8 1 := by bv_omega
  have hhigh : sp - 2 + 2 = sp - BitVec.ofNat 8 0 := by bv_omega
  rw [hlow, hhigh]
  exact ⟨hbytes 1 Nat.one_lt_two, hbytes 0 Nat.two_pos⟩

/-- Settles O36: RTS pulls the two bytes that the JSR pushed, with the SP that it left. -/
theorem callThenReturn : Obligations.CallThenReturn := by
  intro s t u w hw ht hsp hram
  obtain ⟨hcpu, hpushed, -⟩ := State.callSubroutine_spec (lo w) s hw
  cases (exec_jsr w s).symm.trans ht
  have husp : u.cpu.sp = s.cpu.sp - 2 := hsp.trans (congrArg Cpu.sp hcpu)
  obtain ⟨hlow, hhigh⟩ := hpushed.returnAddress
  refine ⟨_, exec_rts u, ?_, ?_⟩
  · rw [State.returnFromSubroutine_cpu]
    show word (u.stackByte (u.cpu.sp + 2)) (u.stackByte (u.cpu.sp + 1)) + 1 = s.cpu.pc + 1
    rw [husp, State.stackByte_of_ram hram, State.stackByte_of_ram hram, hhigh, hlow, word_hi_lo]
  · rw [State.returnFromSubroutine_cpu]
    show u.cpu.sp + 2 = s.cpu.sp
    rw [husp, BitVec.sub_add_cancel]

end Sys2Proof.Machine
end

section
/-! The stack, flag and system family (45_stack_flag_system.md): the frames of the push class, the pull class and the
software interrupt, then the instructions. -/

namespace Sys2Proof.Machine

/-! ## The frames of the push class and of the pull class -/

/-- A push-class instruction stores its byte at the stack pointer and lowers it, and nothing else (R290, R291). -/
theorem exec_push_frame {i : Instr} {reg : Cpu → Byte} (hop : i.mnemonic.operation = .push reg) {s : State}
    (hw : s.con.wf = true) :
    ∃ t, exec i s = .next t ∧ t.cpu = { s.cpu with sp := s.cpu.sp - 1 } ∧
      s.pushedOnly s.cpu.sp [reg s.cpu] t ∧ t.params = s.params := by
  have hx : exec i s = .next (s.pushRows reg) := exec_eq_meaning_of_operation hop (by simp) s
  obtain ⟨hcpu, hpushed⟩ := State.pushRows_spec reg s hw
  exact ⟨_, hx, hcpu, hpushed, State.pushRows_params reg s⟩

/-- A pull-class instruction raises the stack pointer and applies its operation to the byte there, and writes neither
memory nor parameters (R292, R293). -/
theorem exec_pull_frame {i : Instr} {f : Byte → Cpu → Cpu} (hop : i.mnemonic.operation = .pull f) (s : State) :
    ∃ t, exec i s = .next t ∧ t.cpu = f (s.stackByte (s.cpu.sp + 1)) { s.cpu with sp := s.cpu.sp + 1 } ∧
      s.memoryKept t ∧ t.params = s.params := by
  have hx : exec i s = .next (s.pullRows f) := exec_eq_meaning_of_operation hop (by simp) s
  have hreads := State.pullRows_reads f s
  exact ⟨_, hx, State.pullRows_cpu f s, hreads.memoryKept, hreads.params⟩

/-! ## Stack instructions (R290 to R293) -/

/-- Settles O37: the two are the push class with the register A and with the flags as PHP packs them. -/
theorem pushInstructions : Obligations.PushInstructions := by
  intro s i v hw h
  obtain ⟨rfl, rfl⟩ | ⟨rfl, rfl⟩ := h
  · exact exec_push_frame (reg := Cpu.a) rfl hw
  · exact exec_push_frame (reg := Cpu.phpByte) rfl hw

/-- Settles O38: the two are the pull class with `Cpu.pla`, `Cpu.plp`. -/
theorem pullInstructions : Obligations.PullInstructions := by
  intro s
  constructor
  · exact exec_pull_frame (f := Cpu.pla) rfl s
  · exact exec_pull_frame (f := Cpu.plp) rfl s

/-! ## Flag instructions (R294 to R301) -/

/-- Settles O39: each of the eight is the implied class with its own operation. -/
theorem flagInstructions : Obligations.FlagInstructions := by
  intro s i p h
  obtain ⟨rfl, rfl⟩ | ⟨rfl, rfl⟩ | ⟨rfl, rfl⟩ | ⟨rfl, rfl⟩ | ⟨rfl, rfl⟩ | ⟨rfl, rfl⟩ | ⟨rfl, rfl⟩ | ⟨rfl, rfl⟩ := h
  · exact exec_implied_frame (f := Cpu.clc) rfl s
  · exact exec_implied_frame (f := Cpu.sec) rfl s
  · exact exec_implied_frame (f := Cpu.cli) rfl s
  · exact exec_implied_frame (f := Cpu.sei) rfl s
  · exact exec_implied_frame (f := Cpu.cld) rfl s
  · exact exec_implied_frame (f := Cpu.sed) rfl s
  · exact exec_implied_frame (f := Cpu.clv) rfl s
  · exact exec_implied_frame (f := Cpu.nop) rfl s

/-! ## Software interrupt and return (R303, R304) -/

/-- The meaning of BRK (R303). -/
theorem exec_brk (s : State) : exec .brk s = .next s.softwareInterrupt := rfl

/-- The meaning of RTI (R304). -/
theorem exec_rti (s : State) : exec .rti s = .next s.interruptReturn := rfl

/-- BRK takes the interrupt from the state after the fetch of its padding byte, which moves PC by one and keeps every
stored byte. -/
theorem State.softwareInterrupt_spec (s : State) (hw : s.con.wf = true) :
    ∃ l h, s.con.peek vecIrqBrk = some l ∧ s.con.peek (vecIrqBrk + 1) = some h ∧
      s.softwareInterrupt.cpu = { s.cpu with
        sp := s.cpu.sp - 3, p := { s.cpu.p with i := true }, pc := word h l } ∧
      s.pushedOnly s.cpu.sp [hi (s.cpu.pc + 1), lo (s.cpu.pc + 1), s.cpu.p.pack 0b11] s.softwareInterrupt := by
  have hfetch := State.fetch_reads s
  obtain ⟨l, h, hl, hh, hcpu, hpushed⟩ :=
    State.takeInterrupt_spec 0b11 (vec := vecIrqBrk) (by decide) (by decide) s.fetch (hfetch.wf hw)
  rw [State.fetch_cpu] at hcpu hpushed
  exact ⟨l, h, (hfetch.memoryKept _).symm.trans hl, (hfetch.memoryKept _).symm.trans hh, hcpu,
    State.pushedOnly_of_alike hfetch.alike hpushed⟩

/-- Settles O40, by what the shared interrupt operation does after the padding byte is fetched. -/
theorem brkTakesTheSoftwareInterrupt : Obligations.BrkTakesTheSoftwareInterrupt := by
  intro s hw
  obtain ⟨l, h, hl, hh, hcpu, hpushed⟩ := State.softwareInterrupt_spec s hw
  exact ⟨l, h, _, hl, hh, exec_brk s, hcpu, hpushed, State.takeInterrupt_params _ _ s.fetch⟩

/-- Settles O41, by what the shared return operation does to the core; it only reads. -/
theorem rtiReturnsFromInterrupt : Obligations.RtiReturnsFromInterrupt := by
  intro s
  have hreads := State.interruptReturn_reads s
  exact ⟨_, exec_rti s, State.interruptReturn_cpu s, hreads.memoryKept, hreads.params⟩

end Sys2Proof.Machine
end

section
/-! The exception family (60_exceptions.md), part 1: the interrupt check, the hardware sequences, the return from them
(R340 to R351, R354). -/

namespace Sys2Proof.Machine

/-! ## The interrupt check (R341, R342) -/

namespace Cpu

theorem selected_of_reset {c : Cpu} (hreset : c.resetReq = true) : c.selected = some .reset := by
  rw [Cpu.selected, if_pos hreset]

theorem selected_of_nmi {c : Cpu} (hreset : c.resetReq = false) (hnmi : c.nmiReq = true) :
    c.selected = some .nmi := by
  rw [Cpu.selected, if_neg (by simp [hreset]), if_pos hnmi]

/-- Without RESET and NMI the check selects an IRQ exactly when one is pending and `I` is 0. -/
theorem selected_of_no_reset_nmi {c : Cpu} (hreset : c.resetReq = false) (hnmi : c.nmiReq = false) :
    c.selected = if c.irqReq && !c.p.i then some .irq else none := by
  rw [Cpu.selected, if_neg (by simp [hreset]), if_neg (by simp [hnmi])]

/-- A check that selects nothing keeps a pending IRQ under the `hold` policy alone. -/
theorem afterCheck_irqReq_iff {c : Cpu} (h : c.selected = none) (policy : IrqMasked) :
    (c.afterCheck policy).irqReq = true ↔ c.irqReq = true ∧ policy = .hold := by
  unfold Cpu.afterCheck
  rw [h]
  cases policy <;> simp

end Cpu

/-- Settles O42: which request the check selects, and which flag it clears. -/
theorem interruptPriority : Obligations.InterruptPriority := by
  intro s hf hc
  refine ⟨fun hreset => ?_, fun hreset hnmi => ?_, fun hreset hnmi hirq hi => ?_⟩
  · rw [step_of_selected hf hc (Cpu.selected_of_reset hreset), afterCheck_of_reset hreset]
  · rw [step_of_selected hf hc (Cpu.selected_of_nmi hreset hnmi), afterCheck_of_nmi hreset hnmi]
  · have hsel : s.cpu.selected = some .irq := by
      rw [Cpu.selected_of_no_reset_nmi hreset hnmi, hirq, hi]
      rfl
    rw [step_of_selected hf hc hsel, afterCheck_of_irq hreset hnmi hirq hi]

/-- A step that runs an instruction leaves the IRQ request as the check before it left it: neither the fetch nor the
instruction touches it (O49). -/
theorem step_of_running_irqReq {s t : State} (hrun : s.running) (h : step s = .next t) :
    t.cpu.irqReq = s.afterCheck.cpu.irqReq := by
  rw [step_of_running hrun] at h
  obtain ⟨b, hfetch⟩ | ⟨i, hfetch⟩ := fetchInstr_cases s.afterCheck
  · rw [hfetch] at h
    cases h
  · rw [hfetch] at h
    obtain ⟨-, -, hirq, -⟩ := instructionsLeaveRequestsAlone i _ t h
    rw [hirq, State.afterFetch_cpu]

/-- Settles O45: a masked IRQ is not selected, and what the check makes of it is what the step leaves. -/
theorem maskedIrqIsHeldOrDropped : Obligations.MaskedIrqIsHeldOrDropped := by
  intro s t hf hc hreset hnmi hirq hi
  have hsel : s.cpu.selected = none := by
    rw [Cpu.selected_of_no_reset_nmi hreset hnmi, hi]
    simp
  have hrun : s.running := ⟨hf, hc, hsel⟩
  refine ⟨hrun, fun h => ?_⟩
  rw [step_of_running_irqReq hrun h, State.afterCheck_cpu, Cpu.afterCheck_irqReq_iff hsel]
  exact and_iff_right hirq

/-! ## The hardware sequences (R345 to R350) -/

/-- Every vector lies in the PRG-ROM window, with its second byte (R349). -/
theorem vectorOf_in_rom (q : Seq) : 0x8000 ≤ (vectorOf q).toNat ∧ 0x8000 ≤ (vectorOf q + 1).toNat := by
  cases q <;> decide

/-- A sequence other than RESET takes the interrupt from the state after its two dummy reads, which touch neither a
register nor a stored byte. -/
theorem State.runSequence_spec {q : Seq} (hq : q ≠ .reset) (s : State) (hw : s.con.wf = true) :
    ∃ l h, s.con.peek (vectorOf q) = some l ∧ s.con.peek (vectorOf q + 1) = some h ∧
      (s.runSequence q).cpu = { s.cpu with
        sp := s.cpu.sp - 3, p := { s.cpu.p with i := true }, pc := word h l } ∧
      s.pushedOnly s.cpu.sp [hi s.cpu.pc, lo s.cpu.pc, s.cpu.p.pack s.params.pushBitsHw] (s.runSequence q) := by
  have hhead := State.sequenceHead_reads s
  obtain ⟨hvec, hvec'⟩ := vectorOf_in_rom q
  obtain ⟨l, h, hl, hh, hcpu, hpushed⟩ :=
    State.takeInterrupt_spec s.params.pushBitsHw hvec hvec' s.sequenceHead (hhead.wf hw)
  rw [State.sequenceHead_cpu] at hcpu hpushed
  rw [State.runSequence_eq hq]
  exact ⟨l, h, (hhead.memoryKept _).symm.trans hl, (hhead.memoryKept _).symm.trans hh, hcpu,
    State.pushedOnly_of_alike hhead.alike hpushed⟩

theorem State.runSequence_clock (q : Seq) (s : State) : (s.runSequence q).con.clock = s.con.clock + 7 := by
  by_cases hq : q = .reset
  · subst hq
    exact (State.runReset_reads s).clock
  · rw [State.runSequence_eq hq, State.takeInterrupt_clock, (State.sequenceHead_reads s).clock]

/-- Settles O43, by what a sequence other than RESET does, with the vector of each of the two. -/
theorem irqAndNmiSequences : Obligations.IrqAndNmiSequences := by
  intro s q vec hw hq
  have hvec : q ≠ .reset ∧ vectorOf q = vec := by
    obtain ⟨rfl, rfl⟩ | ⟨rfl, rfl⟩ := hq <;> decide
  obtain ⟨hne, rfl⟩ := hvec
  obtain ⟨l, h, hl, hh, hcpu, hpushed⟩ := State.runSequence_spec hne s hw
  exact ⟨l, h, hl, hh, hcpu, hpushed, State.runSequence_clock q s, State.runSequence_params q s⟩

/-- Settles O44: the RESET sequence is seven cycles that only read. -/
theorem resetSequence : Obligations.ResetSequence := by
  intro s
  have hreads := State.runReset_reads s
  obtain ⟨l, h, hl, hh, hcpu⟩ := State.runReset_cpu s
  exact ⟨l, h, hl, hh, hcpu, hreads.memoryKept, hreads.clock, hreads.params⟩

/-! ## The return (R351) -/

/-- The three bytes of an interrupt, where the pulls of RTI find them (20_memory.md R72). -/
theorem State.pushedOnly.interruptFrame {s t : State} {sp h l p : Byte} (hp : s.pushedOnly sp [h, l, p] t) :
    t.stackByte (sp - 3 + 1) = p ∧ t.stackByte (sp - 3 + 2) = l ∧ t.stackByte (sp - 3 + 3) = h := by
  obtain ⟨hbytes, -, -⟩ := hp
  have hstatus : sp - 3 + 1 = sp - BitVec.ofNat 8 2 := by bv_omega
  have hlow : sp - 3 + 2 = sp - BitVec.ofNat 8 1 := by bv_omega
  have hhigh : sp - 3 + 3 = sp - BitVec.ofNat 8 0 := by bv_omega
  rw [hstatus, hlow, hhigh]
  exact ⟨hbytes 2 (Nat.lt_add_one 2), hbytes 1 (by simp), hbytes 0 (by simp)⟩

/-- Settles O46: RTI pulls the three bytes that the sequence pushed, with the SP that it left. -/
theorem interruptThenReturn : Obligations.InterruptThenReturn := by
  intro s u q hw hq hsp hram
  have hne : q ≠ .reset := by
    obtain rfl | rfl := hq <;> decide
  obtain ⟨l, h, -, -, hcpu, hpushed⟩ := State.runSequence_spec hne s hw
  have husp : u.cpu.sp = s.cpu.sp - 3 := hsp.trans (congrArg Cpu.sp hcpu)
  obtain ⟨hstatus, hlow, hhigh⟩ := hpushed.interruptFrame
  refine ⟨_, exec_rti u, ?_⟩
  rw [State.interruptReturn_cpu]
  simp only [husp, State.stackByte_of_ram hram, hstatus, hlow, hhigh, word_hi_lo, unpack_pack]
  exact ⟨trivial, trivial, BitVec.sub_add_cancel _ _⟩

end Sys2Proof.Machine
end

section
/-! The exception family (60_exceptions.md), part 2: the illegal-opcode fault (R331 to R334). -/

namespace Sys2Proof.Machine

/-- Where the byte fetched has no entry, the step ends in the fault's state, which is the state after the fetch with the
fault set (R331, R332). -/
theorem step_of_illegal {s : State} (hrun : s.running) (h : optab (s.afterCheck.fetchedByte 0) = none) :
    step s = .fault (.illegalOpcode (s.afterCheck.fetchedByte 0)
      (s.afterCheck.fetch.withFault (s.afterCheck.fetchedByte 0))) := by
  rw [step_of_running hrun, fetchInstr_illegal (optab_eq_none_iff.1 h)]
  rfl

/-- So does the cycle (R331). -/
theorem cycle_of_illegal {s : State} (hrun : s.running) (h : optab (s.afterCheck.fetchedByte 0) = none) :
    cycle s = .fault (.illegalOpcode (s.afterCheck.fetchedByte 0)
      (s.afterCheck.fetch.withFault (s.afterCheck.fetchedByte 0))) :=
  (cycle_of_running hrun).trans (startInstruction_of_illegal h)

/-- Settles O12: the step, the cycle and the run to idle (O14) end in the one fault. -/
theorem illegalOpcodeFault : Obligations.IllegalOpcodeFault := by
  rintro s b hrun rfl ho
  have ⟨_, hidle, _⟩ := hrun
  refine ⟨fun v hv => State.fetchedByte_of_peek (by simpa using hv), _, step_of_illegal hrun ho,
    cycle_of_illegal hrun ho, ?_, rfl, rfl⟩
  rw [cyclesRefineTheStep s hidle, step_of_illegal hrun ho]

/-- The bus shows no access while the fault stands (R334). -/
theorem State.bus_of_fault {s : State} {b : Byte} (h : s.cpu.fault = some b) : s.bus = none := by
  rw [State.bus, h]

/-- Settles O13: the state the fault leaves is one fetch on, and a set fault answers before anything is looked at. -/
theorem faultStateIsKept : Obligations.FaultStateIsKept := by
  constructor
  · rintro s t b hrun h rfl ho
    cases (step_of_illegal hrun ho).symm.trans h
    have hfetch := State.fetch_reads s.afterCheck
    exact ⟨by simp, hfetch.memoryKept, hfetch.clock⟩
  · intro s b hb
    exact ⟨step_of_fault hb, cycle_of_fault hb, step_of_fault (s := s.raiseReset) hb, hb, State.bus_of_fault hb, hb⟩

end Sys2Proof.Machine
end

section
/-! The exception family (60_exceptions.md), part 3: the PPU's address ports and grace period (R389, R390), its dot
counter and flags (R387), its sprite evaluation (R391). -/

namespace Sys2Proof.Machine

namespace Ppu

/-! ## The address ports (R389) -/

theorem atPalette_iff (p : Ppu) : p.atPalette = true ↔ 0x3F00 ≤ p.v.toNat % 0x4000 := by
  rw [Ppu.atPalette, decide_eq_true_iff, Ppu.busAddr]

/-- A PPUDATA read below palette space (R389). -/
theorem portRead_data_of_buffered {p : Ppu} (h : p.atPalette = false) (cart : Cart) (n : Nat) :
    p.portValue cart 7 n = p.readBuffer ∧ (p.portReadEffect cart 7).readBuffer = p.memRead cart := by
  simp [Ppu.portValue, Ppu.portReadEffect, h]

/-- A PPUDATA read in palette space (R389). -/
theorem portRead_data_of_palette {p : Ppu} (h : p.atPalette = true) (cart : Cart) (n : Nat) :
    p.portValue cart 7 n = p.memRead cart ∧ (p.portReadEffect cart 7).readBuffer = p.readBuffer := by
  simp [Ppu.portValue, Ppu.portReadEffect, h]

/-- In palette space the address modulo 32 tells which of the 32 palette bytes is read (log 32). -/
theorem memRead_of_palette {p : Ppu} (h : 0x3F00 ≤ p.v.toNat % 0x4000) (cart : Cart) :
    p.memRead cart = p.palette.read (p.v.toNat % 32) := by
  rw [Ppu.memRead, Ppu.busAddr, if_neg (by omega), if_neg (by omega), Nat.mod_mod_of_dvd _ (by decide)]

@[simp] theorem memWrite_w (cart : Cart) (d : Byte) (p : Ppu) : (p.memWrite cart d).w = p.w := by
  unfold Ppu.memWrite
  split
  · rfl
  · split <;> rfl

/-- A write of PPUSCROLL or PPUADDR flips the write toggle once the grace period is over. -/
theorem portWrite_flips_w {port : BitVec 3} (h : port ∈ ([5, 6] : List (BitVec 3))) {p : Ppu} (hg : p.grace = 0)
    (cart : Cart) (d : Byte) : (p.portWrite cart port d).w = !p.w := by
  obtain rfl | rfl : port = 5 ∨ port = 6 := by simpa using h
  · show (if p.grace = 0 then p.writeScroll d else p).w = _
    rw [if_pos hg, Console.writeScroll_w]
  · show (if p.grace = 0 then p.writeAddr d else p).w = _
    rw [if_pos hg, Console.writeAddr_w]

/-- No other write moves it. -/
theorem portWrite_keeps_w {port : BitVec 3} (h : port ∉ ([5, 6] : List (BitVec 3))) (p : Ppu) (cart : Cart)
    (d : Byte) : (p.portWrite cart port d).w = p.w := by
  have h5 : port.toNat ≠ 5 := fun he => h (by simp [BitVec.eq_of_toNat_eq (y := 5) he])
  have h6 : port.toNat ≠ 6 := fun he => h (by simp [BitVec.eq_of_toNat_eq (y := 6) he])
  unfold Ppu.portWrite
  split
  case h_1 => split <;> rfl
  case h_2 => split <;> rfl
  case h_3 => rfl
  case h_4 => rfl
  case h_5 => contradiction
  case h_6 => contradiction
  case h_7 => exact memWrite_w cart d p
  case h_8 => rfl

/-- No read but that of the status port moves it. -/
theorem portReadEffect_keeps_w {port : BitVec 3} (h : port ≠ 2) (p : Ppu) (cart : Cart) :
    (p.portReadEffect cart port).w = p.w := by
  unfold Ppu.portReadEffect
  rw [if_neg h]
  split <;> rfl

end Ppu

/-- Settles O53: the two cases of a PPUDATA read, the step of the address, the toggle port by port. -/
theorem ppuAddressPorts : Obligations.PpuAddressPorts := by
  intro p cart d port n
  refine ⟨fun h => ?_, fun h => ?_, rfl, rfl, fun hport hg => Ppu.portWrite_flips_w hport hg cart d,
    fun hport => Ppu.portWrite_keeps_w hport p cart d, fun hport => Ppu.portReadEffect_keeps_w hport p cart⟩
  · have hbuffered : p.atPalette = false := by
      rw [← Bool.not_eq_true, Ppu.atPalette_iff]
      omega
    exact Ppu.portRead_data_of_buffered hbuffered cart n
  · obtain ⟨hvalue, hbuffer⟩ := Ppu.portRead_data_of_palette (p.atPalette_iff.2 h) cart n
    exact ⟨hvalue.trans (Ppu.memRead_of_palette h cart), hbuffer⟩

/-! ## A dot (R387) -/

namespace Ppu

/-- Counter, parity and grace are the same: the flag events, the sprite evaluation and the pixel pipeline leave them
alone. -/
structure SameCounter (p q : Ppu) : Prop where
  scanline : q.scanline = p.scanline
  cycle : q.cycle = p.cycle
  oddFrame : q.oddFrame = p.oddFrame
  grace : q.grace = p.grace

theorem SameCounter.refl (p : Ppu) : p.SameCounter p := ⟨rfl, rfl, rfl, rfl⟩

theorem SameCounter.trans {p q r : Ppu} (h : p.SameCounter q) (g : q.SameCounter r) : p.SameCounter r :=
  ⟨g.scanline.trans h.scanline, g.cycle.trans h.cycle, g.oddFrame.trans h.oddFrame, g.grace.trans h.grace⟩

theorem flagEvents_sameCounter (p : Ppu) : p.SameCounter p.flagEvents := by
  unfold Ppu.flagEvents
  split
  · exact ⟨rfl, rfl, rfl, rfl⟩
  · split
    · exact ⟨rfl, rfl, rfl, rfl⟩
    · split <;> exact ⟨rfl, rfl, rfl, rfl⟩

theorem spriteEvents_sameCounter (p : Ppu) : p.SameCounter p.spriteEvents := by
  unfold Ppu.spriteEvents
  split
  · exact ⟨rfl, rfl, rfl, rfl⟩
  · split <;> exact ⟨rfl, rfl, rfl, rfl⟩

theorem renderEvents_sameCounter (cart : Cart) (p : Ppu) : p.SameCounter (p.renderEvents cart) := by
  unfold Ppu.renderEvents
  split <;> exact ⟨rfl, rfl, rfl, rfl⟩

/-- The PPU once the counter has moved on, its flag events have happened and the grace period is one dot shorter:
what of a dot happens on every line. -/
def counted (p : Ppu) : Ppu := { p.advance.flagEvents with grace := p.grace - 1 }

/-- Off the visible lines a dot is no more than that. -/
theorem dot_of_blank {p : Ppu} (h : ¬ p.counted.scanline.val < 240) (cart : Cart) : p.dot cart = p.counted :=
  if_neg h

theorem dot_sameCounter (cart : Cart) (p : Ppu) : p.counted.SameCounter (p.dot cart) := by
  by_cases h : p.counted.scanline.val < 240
  · have hdot : p.dot cart = p.counted.spriteEvents.renderEvents cart := if_pos h
    rw [hdot]
    exact (spriteEvents_sameCounter _).trans (renderEvents_sameCounter cart _)
  · rw [dot_of_blank h]
    exact .refl _

@[simp] theorem dot_grace (cart : Cart) (p : Ppu) : (p.dot cart).grace = p.grace - 1 := (dot_sameCounter cart p).grace

@[simp] theorem dot_scanline (cart : Cart) (p : Ppu) : (p.dot cart).scanline = p.advance.scanline :=
  (dot_sameCounter cart p).scanline.trans (flagEvents_sameCounter p.advance).scanline

@[simp] theorem dot_cycle (cart : Cart) (p : Ppu) : (p.dot cart).cycle = p.advance.cycle :=
  (dot_sameCounter cart p).cycle.trans (flagEvents_sameCounter p.advance).cycle

@[simp] theorem dot_oddFrame (cart : Cart) (p : Ppu) : (p.dot cart).oddFrame = p.advance.oddFrame :=
  (dot_sameCounter cart p).oddFrame.trans (flagEvents_sameCounter p.advance).oddFrame

/-! ## The counter's next position -/

theorem advance_in_line {p : Ppu} (h : p.cycle ≠ 340) : p.advance = { p with cycle := p.cycle + 1 } := if_neg h

theorem advance_at_line_end {p : Ppu} (h : p.cycle = 340) (hs : p.scanline ≠ 261) :
    p.advance = { p with scanline := p.scanline + 1, cycle := 0 } := by
  rw [Ppu.advance, if_pos h, if_neg hs]

theorem advance_at_frame_end {p : Ppu} (h : p.cycle = 340) (hs : p.scanline = 261) :
    p.advance = { p with
      scanline := 0
      cycle := if p.oddFrame = Config.ppuSkipParity then 1 else 0
      oddFrame := !p.oddFrame
      lastFrame := p.frame
      frameDone := true } := by
  rw [Ppu.advance, if_pos h, if_pos hs]

/-- The line after the last cycle of a line, 262 lines round. -/
theorem advance_scanline_at_wrap {p : Ppu} (h : p.cycle = 340) :
    p.advance.scanline.val = (p.scanline.val + 1) % 262 := by
  by_cases hs : p.scanline = 261
  · rw [advance_at_frame_end h hs, hs]
    rfl
  · rw [advance_at_line_end h hs]
    exact Fin.val_add _ _

/-! ## The flag events -/

/-- From cycle 0 of a line on or below the VBlank line a dot is the flag events of cycle 1. -/
theorem dot_at_line_start {p : Ppu} (hs : 240 ≤ p.scanline.val) (h : p.cycle = 0) (cart : Cart) :
    p.dot cart = { ({ p with cycle := 1 } : Ppu).flagEvents with grace := p.grace - 1 } := by
  have hadvance : p.advance = { p with cycle := 1 } := by
    rw [advance_in_line (by rw [h]; decide), h]
    rfl
  have hline : p.counted.scanline = p.scanline :=
    (flagEvents_sameCounter p.advance).scanline.trans (by rw [hadvance])
  rw [dot_of_blank (by rw [hline]; omega), counted, hadvance]

theorem flagEvents_vblank_line {p : Ppu} (hs : p.scanline = 241) (h : p.cycle = 1) :
    p.flagEvents = { p with vblank := true } := if_pos ⟨hs, h⟩

theorem flagEvents_prerender_line {p : Ppu} (hs : p.scanline = 261) (h : p.cycle = 1) :
    p.flagEvents = { p with vblank := false, spriteZeroHit := false, spriteOverflow := false } := by
  have hline : ¬ (p.scanline = 241 ∧ p.cycle = 1) := fun hv => absurd (hs.symm.trans hv.1) (by decide)
  rw [Ppu.flagEvents, if_neg hline, if_pos ⟨hs, h⟩]

end Ppu

/-- Settles O55: the counter's three ways on, and the flag events at cycle 1 of lines 241 and 261. -/
theorem ppuDotCounterAndFlags : Obligations.PpuDotCounterAndFlags := by
  intro p cart
  have hlast : p.cycle.val = 340 → p.cycle = 340 := fun h => Fin.ext h
  rw [Ppu.dot_scanline, Ppu.dot_cycle, Ppu.dot_oddFrame]
  refine ⟨fun h => ?_, fun h => Ppu.advance_scanline_at_wrap (hlast h), fun h hs => ?_, fun h hs => ?_,
    fun hs h => ?_, fun hs h => ?_⟩
  · have hne : p.cycle ≠ 340 := fun he => absurd (congrArg Fin.val he) (Nat.ne_of_lt h)
    rw [Ppu.advance_in_line hne]
    exact ⟨Fin.val_add_one_of_lt (Fin.lt_def.2 h), rfl⟩
  · rw [Ppu.advance_at_line_end (hlast h) hs]
    exact ⟨rfl, rfl⟩
  · rw [Ppu.advance_at_frame_end (hlast h) hs]
    exact ⟨rfl, rfl⟩
  · rw [Ppu.dot_at_line_start (by rw [hs]; decide) h, Ppu.flagEvents_vblank_line (p := { p with cycle := 1 }) hs rfl]
  · rw [Ppu.dot_at_line_start (by rw [hs]; decide) h,
      Ppu.flagEvents_prerender_line (p := { p with cycle := 1 }) hs rfl]
    exact ⟨rfl, rfl, rfl⟩

/-! ## The grace period (R390) -/

/-- A write of the control, mask, scroll or address port is a no-op while the grace period runs. -/
theorem Ppu.portWrite_of_grace {port : BitVec 3} (h : port ∈ ([0, 1, 5, 6] : List (BitVec 3))) {p : Ppu}
    (hg : p.grace ≠ 0) (cart : Cart) (d : Byte) : p.portWrite cart port d = p := by
  obtain rfl | rfl | rfl | rfl : port = 0 ∨ port = 1 ∨ port = 5 ∨ port = 6 := by simpa using h
  all_goals exact if_neg hg

theorem Ppu.portWrite_ctrl {p : Ppu} (hg : p.grace = 0) (cart : Cart) (d : Byte) :
    p.portWrite cart 0 d = { p with ctrl := d, t := Config.ppuCtrlTemp d p.t } := if_pos hg

theorem Ppu.portWrite_mask {p : Ppu} (hg : p.grace = 0) (cart : Cart) (d : Byte) :
    p.portWrite cart 1 d = { p with mask := d } := if_pos hg

/-- Settles O54: the four ports guarded by the counter, and the one place where a dot lowers it. -/
theorem ppuGracePeriod : Obligations.PpuGracePeriod := by
  refine ⟨rfl, fun cart params => rfl, fun s => rfl, fun p cart d port => ⟨Ppu.dot_grace cart p,
    fun hport hg => Ppu.portWrite_of_grace hport hg cart d, fun hg => ?_⟩⟩
  rw [Ppu.portWrite_ctrl hg, Ppu.portWrite_mask hg]
  exact ⟨rfl, rfl⟩

/-! ## Sprite evaluation (R391) -/

/-- The scan finds a sprite in range while fewer than eight are found. -/
theorem scanOam_found {inRange : Byte → Bool} {oam : Memory} {ptr : Nat} {found : List Byte} (hptr : ptr < 256)
    (hlen : found.length < 32) (h : inRange (oam.read ptr) = true) (fuel : Nat) :
    scanOam inRange oam (fuel + 1) ptr found = scanOam inRange oam fuel (ptr + 4)
      (found ++ [oam.read ptr, oam.read (ptr + 1), oam.read (ptr + 2), oam.read (ptr + 3)]) := by
  rw [scanOam, if_neg (by omega), if_pos hlen, if_pos h]

/-- After eight sprites the next one in range ends the scan with the overflow. -/
theorem scanOam_overflow {inRange : Byte → Bool} {oam : Memory} {ptr : Nat} {found : List Byte} (hptr : ptr < 256)
    (hlen : found.length = 32) (h : inRange (oam.read ptr) = true) (fuel : Nat) :
    scanOam inRange oam (fuel + 1) ptr found = (found, true) := by
  rw [scanOam, if_neg (by omega), if_neg (by omega), if_pos h]

/-- The first `n` bytes of OAM. -/
def oamBytes (oam : Memory) (n : Nat) : List Byte := (List.range n).map oam.read

@[simp] theorem oamBytes_length (oam : Memory) (n : Nat) : (oamBytes oam n).length = n := by simp [oamBytes]

/-- One sprite more. -/
theorem oamBytes_add_four (oam : Memory) (n : Nat) : oamBytes oam (n + 4) =
    oamBytes oam n ++ [oam.read n, oam.read (n + 1), oam.read (n + 2), oam.read (n + 3)] := by
  simp [oamBytes, List.range_succ]

/-- With the first nine sprites in range the scan that has found the first `n` goes on to the first eight and the
overflow; `j` sprites are still to find. -/
theorem scanOam_of_nine {inRange : Byte → Bool} {oam : Memory}
    (h : ∀ k, k < 9 → inRange (oam.read (4 * k)) = true) (fuel : Nat) :
    ∀ (j n : Nat), n + j = 8 →
      scanOam inRange oam (fuel + j + 1) (4 * n) (oamBytes oam (4 * n)) = (oamBytes oam 32, true)
  | 0, n, hn => by
    obtain rfl : n = 8 := hn
    exact scanOam_overflow (by omega) (oamBytes_length oam 32) (h 8 (by omega)) fuel
  | j + 1, n, hn => by
    rw [scanOam_found (by omega) (by rw [oamBytes_length]; omega) (h n (by omega)), ← oamBytes_add_four]
    exact scanOam_of_nine h fuel j (n + 1) (by omega)

/-- Settles O56: the bound on what is found is the scan's own, and the nine sprites are followed one by one. -/
theorem spriteEvaluationLimit : Obligations.SpriteEvaluationLimit := by
  intro inRange oam
  exact ⟨Console.scanOam_length inRange oam 256 0 [] (by simp) (by simp),
    fun h => scanOam_of_nine h 247 8 0 rfl⟩

end Sys2Proof.Machine
end

section
/-! The exception family (60_exceptions.md), part 4: the serial writes of the MMC1 (R401), the controllers (R404), the
frame counter (R405). -/

namespace Sys2Proof.Machine

/-! ## The MMC1 (R401; 70_reset_and_hazards.md R440) -/

namespace Mmc1

theorem write_of_locked {m : Mmc1} (h : m.lock ≠ 0) (a : Addr) (v : Byte) : m.write a v = m := if_neg h

theorem write_of_open {m : Mmc1} (h : m.lock = 0) (a : Addr) (v : Byte) :
    m.write a v = { m.serialWrite a v with lock := 1 } := if_pos h

/-- The clocks move the lock's counter and nothing else. -/
theorem iterate_clock : ∀ (n : Nat) (m : Mmc1), iterate Mmc1.clock n m = { m with lock := m.lock <<< n }
  | 0, m => by rw [BitVec.shiftLeft_zero]; rfl
  | n + 1, m => by
    show iterate Mmc1.clock n m.clock = _
    rw [iterate_clock n, Mmc1.clock, ← BitVec.shiftLeft_add, Nat.add_comm 1 n]

/-- Two clocks shift the two-bit counter out. -/
theorem iterate_clock_unlocks {n : Nat} (hn : 2 ≤ n) (m : Mmc1) : iterate Mmc1.clock n m = { m with lock := 0 } := by
  rw [iterate_clock, BitVec.shiftLeft_eq_zero hn]
  rfl

/-- Where the lock is open and two clocks or more follow, a write is its serial write: the lock is open again. -/
theorem write_spaced {n : Nat} (hn : 2 ≤ n) {m : Mmc1} (h : m.lock = 0) (a : Addr) (v : Byte) :
    iterate Mmc1.clock n (m.write a v) = m.serialWrite a v := by
  have hlock : (m.serialWrite a v).lock = 0 := (Console.serialWrite_lock a v m).trans h
  rw [iterate_clock_unlocks hn, write_of_open h]
  show { m.serialWrite a v with lock := 0 } = m.serialWrite a v
  rw [← hlock]

/-! ### What a serial write does -/

theorem serialWrite_of_reset {v : Byte} (h : v.getLsbD 7 = true) (a : Addr) (m : Mmc1) :
    m.serialWrite a v = { m with shift := 0, count := 0 } := if_pos h

/-- The registers with one more bit in the shift register. -/
def collect (v : Byte) (m : Mmc1) : Mmc1 := { m with shift := m.shiftIn v, count := m.count + 1 }

theorem collect_shift (v : Byte) (m : Mmc1) : (m.collect v).shift = m.shiftIn v := rfl

theorem serialWrite_of_collect {v : Byte} (h : v.getLsbD 7 = false) {m : Mmc1} (hc : m.count ≠ 4) (a : Addr) :
    m.serialWrite a v = m.collect v := by
  rw [Mmc1.serialWrite, if_neg (Bool.eq_false_iff.1 h), if_neg hc, Mmc1.collect]

theorem serialWrite_of_commit {v : Byte} (h : v.getLsbD 7 = false) {m : Mmc1} (hc : m.count = 4) (a : Addr) :
    m.serialWrite a v = { m.commit a (m.shiftIn v) with shift := 0, count := 0 } := by
  rw [Mmc1.serialWrite, if_neg (Bool.eq_false_iff.1 h), if_pos hc]

/-- Where the lock is open and two clocks or more follow, a write below the fifth collects its bit. -/
theorem write_spaced_of_collect {n : Nat} (hn : 2 ≤ n) {m : Mmc1} {c : Fin 5} (hc : m.count = c) (hne : c ≠ 4)
    (hlock : m.lock = 0) {v : Byte} (hv : v.getLsbD 7 = false) (a : Addr) :
    iterate Mmc1.clock n (m.write a v) = m.collect v :=
  (write_spaced hn hlock a v).trans (serialWrite_of_collect hv (hc ▸ hne) a)

/-- The fifth commits what is collected. -/
theorem write_spaced_of_commit {n : Nat} (hn : 2 ≤ n) {m : Mmc1} (hc : m.count = 4) (hlock : m.lock = 0) {v : Byte}
    (hv : v.getLsbD 7 = false) (a : Addr) :
    iterate Mmc1.clock n (m.write a v) = { m.commit a (m.shiftIn v) with shift := 0, count := 0 } :=
  (write_spaced hn hlock a v).trans (serialWrite_of_commit hv hc a)

/-- The written bit enters at the top, and the others move one down. -/
theorem shiftIn_getLsbD (v : Byte) (m : Mmc1) {k : Nat} (hk : k < 5) :
    (m.shiftIn v).getLsbD k = if k = 4 then v.getLsbD 0 else m.shift.getLsbD (k + 1) := by
  rw [Mmc1.shiftIn]
  interval_cases k <;> cases v.getLsbD 0 <;> simp

/-- Five bits shifted in fill the register, the first lowest, whatever it held. -/
theorem shiftIn_five (v0 v1 v2 v3 v4 : Byte) (m : Mmc1) :
    ((((m.collect v0).collect v1).collect v2).collect v3).shiftIn v4 =
      BitVec.ofBool (v4.getLsbD 0) ++ BitVec.ofBool (v3.getLsbD 0) ++ BitVec.ofBool (v2.getLsbD 0) ++
        BitVec.ofBool (v1.getLsbD 0) ++ BitVec.ofBool (v0.getLsbD 0) := by
  refine BitVec.eq_of_getLsbD_eq fun k hk => ?_
  simp only [BitVec.getLsbD_append]
  interval_cases k <;> simp [shiftIn_getLsbD, collect_shift, -BitVec.getLsbD_eq_getElem]

/-- The register that bits 14 and 13 of the address select takes the value, each other one keeps its own. -/
theorem commit_registers (a : Addr) (value : BitVec 5) (m : Mmc1) :
    (m.commit a value).control =
      (if a.getLsbD 14 = false ∧ a.getLsbD 13 = false then value else m.control) ∧
    (m.commit a value).chrBank0 =
      (if a.getLsbD 14 = false ∧ a.getLsbD 13 = true then value else m.chrBank0) ∧
    (m.commit a value).chrBank1 =
      (if a.getLsbD 14 = true ∧ a.getLsbD 13 = false then value else m.chrBank1) ∧
    (m.commit a value).prgBank =
      (if a.getLsbD 14 = true ∧ a.getLsbD 13 = true then value else m.prgBank) := by
  unfold Mmc1.commit
  cases a.getLsbD 14 <;> cases a.getLsbD 13 <;> exact ⟨rfl, rfl, rfl, rfl⟩

end Mmc1

/-- Settles O57: with clocks between them each write finds the lock open (`write_spaced`), so that four of five collect
a bit and the last commits. -/
theorem mmc1SerialWrites : Obligations.Mmc1SerialWrites := by
  intro m a v
  refine ⟨fun h => Mmc1.write_of_locked h a v, fun h => Mmc1.write_of_open h a v, fun h => ?_, fun n hn => ?_,
    fun h hv => ?_, ?_⟩
  · have hlock : (m.write a v).clock.lock ≠ 0 := by
      rw [Mmc1.write_of_open h]
      exact (by decide : (1 : BitVec 2) <<< 1 ≠ 0)
    exact ⟨hlock, Mmc1.write_of_locked hlock⟩
  · rw [Mmc1.iterate_clock_unlocks hn]
  · rw [Mmc1.write_of_open h, Mmc1.serialWrite_of_reset hv]
    exact ⟨rfl, rfl, rfl, rfl, rfl, rfl⟩
  · intro n a0 a1 a2 a3 a4 v0 v1 v2 v3 v4 hn hlock hcount h0 h1 h2 h3 h4 w r value
    have hc1 : (m.collect v0).count = 1 := congrArg (· + 1) hcount
    have hc2 : ((m.collect v0).collect v1).count = 2 := congrArg (· + 1) hc1
    have hc3 : (((m.collect v0).collect v1).collect v2).count = 3 := congrArg (· + 1) hc2
    have hc4 : ((((m.collect v0).collect v1).collect v2).collect v3).count = 4 := congrArg (· + 1) hc3
    have hr : r = { ((((m.collect v0).collect v1).collect v2).collect v3).commit a4 value with
        shift := 0, count := 0 } := by
      dsimp only [r, w, value]
      rw [Mmc1.write_spaced_of_collect hn hcount (by decide) hlock h0,
        Mmc1.write_spaced_of_collect hn hc1 (by decide) hlock h1,
        Mmc1.write_spaced_of_collect hn hc2 (by decide) hlock h2,
        Mmc1.write_spaced_of_collect hn hc3 (by decide) hlock h3,
        Mmc1.write_spaced_of_commit hn hc4 hlock h4, Mmc1.shiftIn_five]
    rw [hr]
    exact ⟨rfl, rfl, Mmc1.commit_registers a4 value _⟩

/-! ## The controllers (R404) -/

namespace Pad

theorem afterRead_of_left {p : Pad} (h : p.left ≠ 0) :
    p.afterRead false = { p with shift := p.shift >>> 1, left := p.left - 1 } := by
  simp [Pad.afterRead, h]

/-- Reads with strobe low shift one bit out each, as long as there are unread bits. -/
theorem iterate_afterRead : ∀ (k : Nat) (p : Pad), k ≤ p.left.val →
    (iterate (Pad.afterRead false) k p).shift = p.shift >>> k ∧
      (iterate (Pad.afterRead false) k p).left.val = p.left.val - k
  | 0, p, _ => ⟨(BitVec.ushiftRight_zero _).symm, rfl⟩
  | k + 1, p, h => by
    have hleft : p.left ≠ 0 := fun he => by simp [he] at h
    have hval : (p.afterRead false).left.val = p.left.val - 1 := by
      rw [afterRead_of_left hleft]
      exact Fin.val_sub_one_of_ne_zero hleft
    have hshift : (p.afterRead false).shift = p.shift >>> 1 := by rw [afterRead_of_left hleft]
    obtain ⟨ihshift, ihleft⟩ := iterate_afterRead k (p.afterRead false) (by omega)
    refine ⟨ihshift.trans ?_, ihleft.trans ?_⟩
    · rw [hshift, ← BitVec.shiftRight_add, Nat.add_comm]
    · omega

theorem value_of_left {p : Pad} (h : p.left ≠ 0) (n : Nat) : p.value false n = padByte (p.shift.getLsbD 0) n := by
  rw [Pad.value, if_neg (by decide), if_neg h]

end Pad

/-- Settles O58: after `k` of eight reads bit `k` of the latched buttons stands lowest, and one is left at least. -/
theorem controllerReadsEightButtons : Obligations.ControllerReadsEightButtons := by
  intro p n k hk
  obtain ⟨hshift, hleft⟩ := Pad.iterate_afterRead k (p.afterStrobe true false) (Nat.le_of_lt hk)
  have hne : (iterate (Pad.afterRead false) k (p.afterStrobe true false)).left ≠ 0 := fun he => by
    rw [he] at hleft
    exact absurd hleft (Nat.ne_of_lt (Nat.sub_pos_of_lt hk))
  have hbit : (p.buttons >>> k).getLsbD 0 = p.buttons.getLsbD k := by rw [BitVec.getLsbD_ushiftRight, Nat.add_zero]
  have hvalue : (iterate (Pad.afterRead false) k (p.afterStrobe true false)).value false n =
      padByte (p.buttons.getLsbD k) n := by
    rw [Pad.value_of_left hne, hshift]
    exact congrArg (padByte · n) hbit
  rw [hvalue]
  exact ⟨rfl, withBit_self _ _ _⟩

/-! ## The frame counter (R405) -/

namespace Apu

/-- The registers of the sequencer that a channel-counter clock leaves alone. -/
structure SameSequencer (a b : Apu) : Prop where
  fiveStep : b.fiveStep = a.fiveStep
  stepIndex : b.stepIndex = a.stepIndex
  divider : b.divider = a.divider
  resetIn : b.resetIn = a.resetIn

theorem dueClock_sameSequencer (a : Apu) : a.SameSequencer a.dueClock := by
  unfold Apu.dueClock
  split <;> exact ⟨rfl, rfl, rfl, rfl⟩

theorem resetCountdown_of_two {a : Apu} (h : a.resetIn = 2) : a.resetCountdown = { a with resetIn := 1 } := by
  rw [Apu.resetCountdown, if_neg (by omega), if_neg (by omega), h]

/-- The reset that is due restarts the divider, with the mode in force, and the step. -/
theorem resetCountdown_of_one {a : Apu} (h : a.resetIn = 1) :
    a.resetCountdown.divider = Config.apuDivider a.fiveStep 0 ∧ a.resetCountdown.stepIndex = 0 := by
  rw [Apu.resetCountdown, if_neg (by omega), if_pos h]
  dsimp only
  split <;> exact ⟨rfl, rfl⟩

/-- The divider's tick leaves the mode and the scheduled reset alone. -/
theorem dividerTick_keeps (a : Apu) : a.dividerTick.fiveStep = a.fiveStep ∧ a.dividerTick.resetIn = a.resetIn := by
  unfold Apu.dividerTick
  split
  · split <;> exact ⟨rfl, rfl⟩
  · exact ⟨rfl, rfl⟩

/-- An APU cycle does to the mode and the scheduled reset what its countdown does. -/
theorem cycle_keeps (a : Apu) : a.cycle.fiveStep = a.dueClock.resetCountdown.fiveStep ∧
    a.cycle.resetIn = a.dueClock.resetCountdown.resetIn := dividerTick_keeps _

end Apu

/-- Settles O59: the countdown goes from 2 to 1 in the cycle after the write and is due in the one after that. -/
theorem frameCounterResetIsDelayed : Obligations.FrameCounterResetIsDelayed := by
  intro a d w
  have hdue := Apu.dueClock_sameSequencer w
  have hfirst : w.dueClock.resetCountdown = { w.dueClock with resetIn := 1 } := Apu.resetCountdown_of_two hdue.resetIn
  obtain ⟨hmode, hone⟩ := Apu.cycle_keeps w
  rw [hfirst] at hmode hone
  have hdue' := Apu.dueClock_sameSequencer w.cycle
  obtain ⟨hdivider, hstep⟩ := Apu.resetCountdown_of_one (hdue'.resetIn.trans hone)
  rw [hfirst]
  refine ⟨rfl, rfl, hdue.divider, hdue.stepIndex, rfl, ?_, hstep⟩
  rw [hdivider, hdue'.fiveStep, hmode]
  exact congrArg (Config.apuDivider · 0) hdue.fiveStep

end Sys2Proof.Machine
end

section
/-! The reset family (70_reset_and_hazards.md): the first step from power-on (R431). -/

namespace Sys2Proof.Machine

/-- In the cartridge's part of the address space the stored byte is one of the cartridge's. -/
theorem Console.cellOf_cart {a : Addr} (ha : 0x4020 ≤ a.toNat) (c : Console) : c.cellOf a = c.cart.cellOf a := by
  have hram : ¬ a.toNat < 0x2000 := by omega
  have hppu : ¬ a.toNat < 0x4000 := by omega
  have hio : ¬ a.toNat < 0x4020 := by omega
  simp [Console.cellOf, region, hram, hppu, hio]

/-- A stored byte that is found there is the byte of a cell the cartridge gives. -/
theorem Console.cartCell_of_peek {a : Addr} (ha : 0x4020 ≤ a.toNat) {c : Console} {v : Byte} (h : c.peek a = some v) :
    ∃ cell, c.cart.cellOf a = some cell ∧ c.byteOf cell = v := by
  rwa [Console.peek, Console.cellOf_cart ha, Option.map_eq_some_iff] at h

/-- Power-on is idle, without a fault, with a reset pending: its step consumes the request and runs the RESET sequence
(R341). -/
theorem step_powerOn (cart : Cart) (params : Params) :
    step (State.powerOn cart params) =
      .next (((State.powerOn cart params).mapCpu (fun c => { c with resetReq := false })).runSequence .reset) := by
  obtain ⟨hreset, -, -⟩ := interruptPriority (State.powerOn cart params) rfl rfl
  exact hreset rfl

/-- Settles O2: the first step is the RESET sequence, so what it does is O44; the vector lies in the cartridge. -/
theorem firstStepIsTheResetSequence : Obligations.FirstStepIsTheResetSequence := by
  intro cart params
  obtain ⟨l, h, hl, hh, hcpu, hmem, hclock, -⟩ :=
    resetSequence ((State.powerOn cart params).mapCpu (fun c => { c with resetReq := false }))
  obtain ⟨lowCell, hlow, rfl⟩ := Console.cartCell_of_peek (by decide) hl
  obtain ⟨highCell, hhigh, rfl⟩ := Console.cartCell_of_peek (by decide) hh
  exact ⟨_, step_powerOn cart params, ⟨lowCell, highCell, hlow, hhigh, hcpu⟩, hmem, hclock⟩

end Sys2Proof.Machine
end
